-- ==== Sys2Proof/Word.lean ====
section
/-! DEFINITION. The bit-vector types of the CHIP-8 core (spec/00_scope.md R9, R10: every value is unsigned). -/

namespace Sys2Proof

/-- An unsigned 8-bit value: a general register, a timer, a memory cell (R16, R21, R25). -/
abbrev Byte := BitVec 8

/-- An unsigned 16-bit value: `PC`, `I`, a stack entry, an instruction word (R18, R19, R20, R49). -/
abbrev Word := BitVec 16

/-- A 4-bit field of an instruction word: `op`, `x`, `y`, `n` (R50). -/
abbrev Nibble := BitVec 4

/-- The 12-bit field `addr` of an instruction word (R50). -/
abbrev Addr := BitVec 12

end Sys2Proof
end

