-- ==== Sys2Proof/Syntax.lean ====
section
/-! DEFINITION. The instructions: one constructor per row of spec/opcode_table.json (spec/30_encoding.md R59), and the
default no-op of R58 and R61. -/

namespace Sys2Proof

/-- The 35 behaviours of R59 in that table's order, then the default arm `NOP`. A constructor carries the operands its
rule names; bits the decoder ignores (R57) are no operands. -/
inductive Instr where
  /-- `0nnn` SYS addr (R66). -/
  | sys (addr : Addr)
  /-- `00E0` CLS (R99). -/
  | cls
  /-- `00EE` RET (R67). -/
  | ret
  /-- `1nnn` JP addr (R68). -/
  | jp (addr : Addr)
  /-- `2nnn` CALL addr (R69). -/
  | call (addr : Addr)
  /-- `3xkk` SE Vx, kk (R70). -/
  | seVxKk (x : Nibble) (kk : Byte)
  /-- `4xkk` SNE Vx, kk (R71). -/
  | sneVxKk (x : Nibble) (kk : Byte)
  /-- `5xy0` SE Vx, Vy (R72). -/
  | seVxVy (x y : Nibble)
  /-- `6xkk` LD Vx, kk (R77). -/
  | ldVxKk (x : Nibble) (kk : Byte)
  /-- `7xkk` ADD Vx, kk (R78). -/
  | addVxKk (x : Nibble) (kk : Byte)
  /-- `8xy0` LD Vx, Vy (R80). -/
  | ldVxVy (x y : Nibble)
  /-- `8xy1` OR Vx, Vy (R81). -/
  | orVxVy (x y : Nibble)
  /-- `8xy2` AND Vx, Vy (R82). -/
  | andVxVy (x y : Nibble)
  /-- `8xy3` XOR Vx, Vy (R83). -/
  | xorVxVy (x y : Nibble)
  /-- `8xy4` ADD Vx, Vy (R84). -/
  | addVxVy (x y : Nibble)
  /-- `8xy5` SUB Vx, Vy (R85). -/
  | subVxVy (x y : Nibble)
  /-- `8xy6` SHR Vx (R86). -/
  | shrVx (x : Nibble)
  /-- `8xy7` SUBN Vx, Vy (R87). -/
  | subnVxVy (x y : Nibble)
  /-- `8xyE` SHL Vx (R88). -/
  | shlVx (x : Nibble)
  /-- `9xy0` SNE Vx, Vy (R73). -/
  | sneVxVy (x y : Nibble)
  /-- `Annn` LD I, addr (R92). -/
  | ldIAddr (addr : Addr)
  /-- `Bnnn` JP V0, addr (R74). -/
  | jpV0 (addr : Addr)
  /-- `Cxkk` RND Vx, kk (R89). -/
  | rnd (x : Nibble) (kk : Byte)
  /-- `Dxyn` DRW Vx, Vy, n (R100). -/
  | drw (x y n : Nibble)
  /-- `Ex9E` SKP Vx (R110). -/
  | skp (x : Nibble)
  /-- `ExA1` SKNP Vx (R111). -/
  | sknp (x : Nibble)
  /-- `Fx07` LD Vx, DT (R107). -/
  | ldVxDt (x : Nibble)
  /-- `Fx0A` LD Vx, K (R113). -/
  | ldVxK (x : Nibble)
  /-- `Fx15` LD DT, Vx (R108). -/
  | ldDtVx (x : Nibble)
  /-- `Fx18` LD ST, Vx (R109). -/
  | ldStVx (x : Nibble)
  /-- `Fx1E` ADD I, Vx (R93). -/
  | addIVx (x : Nibble)
  /-- `Fx29` LD F, Vx (R94). -/
  | ldFVx (x : Nibble)
  /-- `Fx33` LD B, Vx (R95). -/
  | ldBVx (x : Nibble)
  /-- `Fx55` LD [I], Vx (R96). -/
  | ldMemVx (x : Nibble)
  /-- `Fx65` LD Vx, [I] (R97). -/
  | ldVxMem (x : Nibble)
  /-- The default arm (R58, R61): a word no other row takes. It keeps the word, so that it can be encoded again (log entry 10;
  DESIGN CHOICE, safe). -/
  | nop (word : Word)
  deriving DecidableEq, Repr

end Sys2Proof
end

