-- ==== Sys2Proof/WellFormed.lean ====
section
/-! DEFINITION. Which terms of `Instr` stand for a word. Every operand of the type is legal but for two exclusions, which
spec/30_encoding.md R57 and R60 give. -/

namespace Sys2Proof

/-- The words of the last three rows of R60: the ones the default arm takes. -/
def isHole (w : Word) : Bool :=
  (w &&& 0xF000 == 0x8000 && (w &&& 0x000F) ∈ ([0x8, 0x9, 0xA, 0xB, 0xC, 0xD, 0xF] : List Word))
  || (w &&& 0xF000 == 0xE000 && (w &&& 0x00FF) ∉ ([0x9E, 0xA1] : List Word))
  || (w &&& 0xF000 == 0xF000
      && (w &&& 0x00FF) ∉ ([0x07, 0x0A, 0x15, 0x18, 0x1E, 0x29, 0x33, 0x55, 0x65] : List Word))

/-- The first row of R60: `addr` has a low byte that is neither that of CLS nor that of RET. -/
def isSysAddr (addr : Addr) : Bool :=
  (addr &&& 0x0FF) ∉ ([0x0E0, 0x0EE] : List Addr)

/-- `SYS` takes exactly the family-0 words CLS and RET do not, and `NOP` exactly the holes (R60, R63). -/
def Instr.wellFormed : Instr → Bool
  | .sys addr => isSysAddr addr
  | .nop w => isHole w
  | .cls => true
  | .ret => true
  | .jp _ => true
  | .call _ => true
  | .seVxKk _ _ => true
  | .sneVxKk _ _ => true
  | .seVxVy _ _ => true
  | .ldVxKk _ _ => true
  | .addVxKk _ _ => true
  | .ldVxVy _ _ => true
  | .orVxVy _ _ => true
  | .andVxVy _ _ => true
  | .xorVxVy _ _ => true
  | .addVxVy _ _ => true
  | .subVxVy _ _ => true
  | .shrVx _ => true
  | .subnVxVy _ _ => true
  | .shlVx _ => true
  | .sneVxVy _ _ => true
  | .ldIAddr _ => true
  | .jpV0 _ => true
  | .rnd _ _ => true
  | .drw _ _ _ => true
  | .skp _ => true
  | .sknp _ => true
  | .ldVxDt _ => true
  | .ldVxK _ => true
  | .ldDtVx _ => true
  | .ldStVx _ => true
  | .addIVx _ => true
  | .ldFVx _ => true
  | .ldBVx _ => true
  | .ldMemVx _ => true
  | .ldVxMem _ => true

end Sys2Proof
end

