-- ==== Sys2Proof/Decode.lean ====
section
/-! DEFINITION. The fields and formats of an instruction word, the decoder (total, spec/30_encoding.md R57, R63), the
encoder, and the rows of spec/opcode_table.json as mask and value. -/

namespace Sys2Proof

/-! The fields of R50. -/

/-- `op` = bits 15..12. -/
def opOf (w : Word) : Nibble := w.extractLsb' 12 4
/-- `x` = bits 11..8. -/
def xOf (w : Word) : Nibble := w.extractLsb' 8 4
/-- `y` = bits 7..4. -/
def yOf (w : Word) : Nibble := w.extractLsb' 4 4
/-- `n` = bits 3..0. -/
def nOf (w : Word) : Nibble := w.extractLsb' 0 4
/-- `kk` = bits 7..0. -/
def kkOf (w : Word) : Byte := w.extractLsb' 0 8
/-- `addr` = bits 11..0. -/
def addrOf (w : Word) : Addr := w.extractLsb' 0 12

/-! The formats of R51. -/

/-- Format `A`: `op` and a 12-bit address. -/
def wordA (op : Nibble) (addr : Addr) : Word := op.setWidth 16 <<< 12 ||| addr.setWidth 16
/-- Formats `XK`, `XS` and `Z`: `op`, a register field and a byte. -/
def wordXK (op x : Nibble) (kk : Byte) : Word := op.setWidth 16 <<< 12 ||| x.setWidth 16 <<< 8 ||| kk.setWidth 16
/-- Format `XY`: `op`, two register fields and a nibble. -/
def wordXY (op x y n : Nibble) : Word :=
  op.setWidth 16 <<< 12 ||| x.setWidth 16 <<< 8 ||| y.setWidth 16 <<< 4 ||| n.setWidth 16

/-! The decoder. -/

/-- Family 0 branches on the low byte only (R57). -/
def decodeFamily0 (w : Word) : Instr :=
  match (kkOf w).toNat with
  | 0xE0 => .cls
  | 0xEE => .ret
  | _ => .sys (addrOf w)

/-- Family 8 branches on the low nibble (R57). -/
def decodeFamily8 (w : Word) : Instr :=
  match (nOf w).toNat with
  | 0x0 => .ldVxVy (xOf w) (yOf w)
  | 0x1 => .orVxVy (xOf w) (yOf w)
  | 0x2 => .andVxVy (xOf w) (yOf w)
  | 0x3 => .xorVxVy (xOf w) (yOf w)
  | 0x4 => .addVxVy (xOf w) (yOf w)
  | 0x5 => .subVxVy (xOf w) (yOf w)
  | 0x6 => .shrVx (xOf w)
  | 0x7 => .subnVxVy (xOf w) (yOf w)
  | 0xE => .shlVx (xOf w)
  | _ => .nop w

/-- Family E branches on the low byte (R57). -/
def decodeFamilyE (w : Word) : Instr :=
  match (kkOf w).toNat with
  | 0x9E => .skp (xOf w)
  | 0xA1 => .sknp (xOf w)
  | _ => .nop w

/-- Family F branches on the low byte (R57). -/
def decodeFamilyF (w : Word) : Instr :=
  match (kkOf w).toNat with
  | 0x07 => .ldVxDt (xOf w)
  | 0x0A => .ldVxK (xOf w)
  | 0x15 => .ldDtVx (xOf w)
  | 0x18 => .ldStVx (xOf w)
  | 0x1E => .addIVx (xOf w)
  | 0x29 => .ldFVx (xOf w)
  | 0x33 => .ldBVx (xOf w)
  | 0x55 => .ldMemVx (xOf w)
  | 0x65 => .ldVxMem (xOf w)
  | _ => .nop w

/-- The decoder of R57 over the word alone. Families 5 and 9 ignore the low nibble (decision D10 of the
spec; log entry 11). The numeric codes are the spec's conventional table (log entry 8). -/
def decodeWord (w : Word) : Instr :=
  match (opOf w).toNat with
  | 0x0 => decodeFamily0 w
  | 0x1 => .jp (addrOf w)
  | 0x2 => .call (addrOf w)
  | 0x3 => .seVxKk (xOf w) (kkOf w)
  | 0x4 => .sneVxKk (xOf w) (kkOf w)
  | 0x5 => .seVxVy (xOf w) (yOf w)
  | 0x6 => .ldVxKk (xOf w) (kkOf w)
  | 0x7 => .addVxKk (xOf w) (kkOf w)
  | 0x8 => decodeFamily8 w
  | 0x9 => .sneVxVy (xOf w) (yOf w)
  | 0xA => .ldIAddr (addrOf w)
  | 0xB => .jpV0 (addrOf w)
  | 0xC => .rnd (xOf w) (kkOf w)
  | 0xD => .drw (xOf w) (yOf w) (nOf w)
  | 0xE => decodeFamilyE w
  | _ => decodeFamilyF w

/-- Two bytes as a word, the first (lower address) being bits 15..8: `(high << 8) | low` (R32). -/
def wordOfBytes (hi lo : Byte) : Word := hi.setWidth 16 <<< 8 ||| lo.setWidth 16

/-- The bytes of a word in the order memory holds them (R32). -/
def bytesOfWord (w : Word) : List Byte := [w.extractLsb' 8 8, w.extractLsb' 0 8]

/-- Why a byte sequence holds no instruction. No 16-bit word is refused (R60, R63). -/
inductive DecodeError where
  /-- Fewer than the two bytes of an instruction word (R49). -/
  | truncated
  deriving DecidableEq, Repr

/-- The instruction at the front of a byte sequence and the bytes after it (R49: always two bytes). -/
def decode : List Byte → Except DecodeError (Instr × List Byte)
  | hi :: lo :: rest => .ok (decodeWord (wordOfBytes hi lo), rest)
  | _ => .error .truncated

/-! The encoder. Bits the decoder ignores are written as zero, the conventional spelling of R59. -/

/-- The word of a well-formed instruction. -/
def encode : Instr → Word
  | .sys addr => wordA 0x0 addr
  | .cls => wordXK 0x0 0x0 0xE0
  | .ret => wordXK 0x0 0x0 0xEE
  | .jp addr => wordA 0x1 addr
  | .call addr => wordA 0x2 addr
  | .seVxKk x kk => wordXK 0x3 x kk
  | .sneVxKk x kk => wordXK 0x4 x kk
  | .seVxVy x y => wordXY 0x5 x y 0x0
  | .ldVxKk x kk => wordXK 0x6 x kk
  | .addVxKk x kk => wordXK 0x7 x kk
  | .ldVxVy x y => wordXY 0x8 x y 0x0
  | .orVxVy x y => wordXY 0x8 x y 0x1
  | .andVxVy x y => wordXY 0x8 x y 0x2
  | .xorVxVy x y => wordXY 0x8 x y 0x3
  | .addVxVy x y => wordXY 0x8 x y 0x4
  | .subVxVy x y => wordXY 0x8 x y 0x5
  | .shrVx x => wordXY 0x8 x 0x0 0x6
  | .subnVxVy x y => wordXY 0x8 x y 0x7
  | .shlVx x => wordXY 0x8 x 0x0 0xE
  | .sneVxVy x y => wordXY 0x9 x y 0x0
  | .ldIAddr addr => wordA 0xA addr
  | .jpV0 addr => wordA 0xB addr
  | .rnd x kk => wordXK 0xC x kk
  | .drw x y n => wordXY 0xD x y n
  | .skp x => wordXK 0xE x 0x9E
  | .sknp x => wordXK 0xE x 0xA1
  | .ldVxDt x => wordXK 0xF x 0x07
  | .ldVxK x => wordXK 0xF x 0x0A
  | .ldDtVx x => wordXK 0xF x 0x15
  | .ldStVx x => wordXK 0xF x 0x18
  | .addIVx x => wordXK 0xF x 0x1E
  | .ldFVx x => wordXK 0xF x 0x29
  | .ldBVx x => wordXK 0xF x 0x33
  | .ldMemVx x => wordXK 0xF x 0x55
  | .ldVxMem x => wordXK 0xF x 0x65
  | .nop w => w

/-- The bytes of a well-formed instruction in the order memory holds them. -/
def encodeBytes (i : Instr) : List Byte := bytesOfWord (encode i)

/-! The opcode table, row by row, as spec/opcode_table.json gives it. -/

/-- A `mask` and a `match` value: the row takes `w` when `w AND mask = value`. -/
structure Row where
  mask : Word
  value : Word
  deriving DecidableEq, Repr

/-- The row of the table an instruction belongs to; `NOP` belongs to none. -/
def Instr.row : Instr → Option Row
  | .sys _ => some ⟨0xF000, 0x0000⟩
  | .cls => some ⟨0xF0FF, 0x00E0⟩
  | .ret => some ⟨0xF0FF, 0x00EE⟩
  | .jp _ => some ⟨0xF000, 0x1000⟩
  | .call _ => some ⟨0xF000, 0x2000⟩
  | .seVxKk _ _ => some ⟨0xF000, 0x3000⟩
  | .sneVxKk _ _ => some ⟨0xF000, 0x4000⟩
  | .seVxVy _ _ => some ⟨0xF000, 0x5000⟩
  | .ldVxKk _ _ => some ⟨0xF000, 0x6000⟩
  | .addVxKk _ _ => some ⟨0xF000, 0x7000⟩
  | .ldVxVy _ _ => some ⟨0xF00F, 0x8000⟩
  | .orVxVy _ _ => some ⟨0xF00F, 0x8001⟩
  | .andVxVy _ _ => some ⟨0xF00F, 0x8002⟩
  | .xorVxVy _ _ => some ⟨0xF00F, 0x8003⟩
  | .addVxVy _ _ => some ⟨0xF00F, 0x8004⟩
  | .subVxVy _ _ => some ⟨0xF00F, 0x8005⟩
  | .shrVx _ => some ⟨0xF00F, 0x8006⟩
  | .subnVxVy _ _ => some ⟨0xF00F, 0x8007⟩
  | .shlVx _ => some ⟨0xF00F, 0x800E⟩
  | .sneVxVy _ _ => some ⟨0xF000, 0x9000⟩
  | .ldIAddr _ => some ⟨0xF000, 0xA000⟩
  | .jpV0 _ => some ⟨0xF000, 0xB000⟩
  | .rnd _ _ => some ⟨0xF000, 0xC000⟩
  | .drw _ _ _ => some ⟨0xF000, 0xD000⟩
  | .skp _ => some ⟨0xF0FF, 0xE09E⟩
  | .sknp _ => some ⟨0xF0FF, 0xE0A1⟩
  | .ldVxDt _ => some ⟨0xF0FF, 0xF007⟩
  | .ldVxK _ => some ⟨0xF0FF, 0xF00A⟩
  | .ldDtVx _ => some ⟨0xF0FF, 0xF015⟩
  | .ldStVx _ => some ⟨0xF0FF, 0xF018⟩
  | .addIVx _ => some ⟨0xF0FF, 0xF01E⟩
  | .ldFVx _ => some ⟨0xF0FF, 0xF029⟩
  | .ldBVx _ => some ⟨0xF0FF, 0xF033⟩
  | .ldMemVx _ => some ⟨0xF0FF, 0xF055⟩
  | .ldVxMem _ => some ⟨0xF0FF, 0xF065⟩
  | .nop _ => none

/-- The row takes the word. The SYS row takes it only where the CLS and RET rows do not (the table's note on SYS). -/
def Row.takes (r : Row) (w : Word) : Bool :=
  w &&& r.mask == r.value
  && (r.value != 0x0000 || (w &&& 0xF0FF != 0x00E0 && w &&& 0xF0FF != 0x00EE))

/-- The fixed name the host reads: the instruction whose bits, numbered as the table numbers them, are the low `nbits`
bits of `w`. The word is laid out as two bytes, high byte first (R32), and read by `decode`. -/
def decodeTableWord (nbits w : Nat) : Option Instr :=
  match decode (bytesOfWord (BitVec.ofNat 16 (w % 2 ^ nbits))) with
  | .ok (i, _) => some i
  | .error _ => none

end Sys2Proof
end

