-- ==== Sys2Proof/Config.lean ====
section
/-! DEFINITION. What an implementation fixes (spec/00_scope.md R7) and the one free value of the spec, the random byte. -/

namespace Sys2Proof

/-- The configuration parameters of R7. A state carries its own copy (`State.cfg`), which no step changes, so that a
statement over all states is a statement over all parameters. -/
structure Config where
  /-- `W`, the display width in pixels; R7 asks for `W >= 1`. -/
  width : Nat
  /-- `H`, the display height in pixels; R7 asks for `H >= 1`. -/
  height : Nat
  /-- `LOAD_ADDR`, the default address of the Load transaction. -/
  loadAddr : Nat
  /-- `FONT`: glyph `d`, row `r` is the reset content of address `5*d + r` (R140). -/
  font : Vector (Vector Byte 5) 16
  deriving DecidableEq, Repr

/-- The font table of R140. PRESUMED there (general knowledge), unsafe where a claim reads glyph bytes (log entry 3). -/
def Config.standardFont : Vector (Vector Byte 5) 16 :=
  #v[#v[0xF0, 0x90, 0x90, 0x90, 0xF0], #v[0x20, 0x60, 0x20, 0x20, 0x70], #v[0xF0, 0x10, 0xF0, 0x80, 0xF0],
     #v[0xF0, 0x10, 0xF0, 0x10, 0xF0], #v[0x90, 0x90, 0xF0, 0x10, 0x10], #v[0xF0, 0x80, 0xF0, 0x10, 0xF0],
     #v[0xF0, 0x80, 0xF0, 0x90, 0xF0], #v[0xF0, 0x10, 0x20, 0x40, 0x40], #v[0xF0, 0x90, 0xF0, 0x90, 0xF0],
     #v[0xF0, 0x90, 0xF0, 0x10, 0xF0], #v[0xF0, 0x90, 0xF0, 0x90, 0x90], #v[0xE0, 0x90, 0xE0, 0x90, 0xE0],
     #v[0xF0, 0x80, 0x80, 0x80, 0xF0], #v[0xE0, 0x90, 0x90, 0x90, 0xE0], #v[0xF0, 0x80, 0xF0, 0x80, 0xF0],
     #v[0xF0, 0x80, 0xF0, 0x80, 0x80]]

/-- The defaults of R7: 64 columns, 32 rows, programs loaded at 0x200, the font of R140. -/
def Config.default : Config :=
  { width := 64, height := 32, loadAddr := 0x200, font := Config.standardFont }

/-- The bounds R7 puts on the display dimensions. -/
abbrev Config.Ok (c : Config) : Prop := 1 ≤ c.width ∧ 1 ≤ c.height

/-- `RNG` (R7, R89): the byte `r` drawn by the `k`-th `RND`. It has no body, so nothing can be proved of its value. The
counter `State.draws` gives every draw an index of its own (log entry 1; DESIGN CHOICE on the form, safe for one run). -/
opaque Config.randomByte : Nat → Byte

end Sys2Proof
end

