-- ==== Sys2Proof/Machine/State.lean ====
section
/-! DEFINITION. The state of the core (spec/10_state.md R27), the host's requests at its boundary (R28), the reasons a step
can stop, and the state after reset (spec/70_reset_and_hazards.md R136). -/

namespace Sys2Proof.Machine

/-- The cause field of the fault record (R24, R117). -/
inductive FaultCause where
  | none
  | stackOverflow
  | stackUnderflow
  | addressFault
  deriving DecidableEq, Repr

/-- The states of the key-wait machine (R23, R112). -/
inductive KeyWait where
  | idle
  | awaitingPress
  | awaitingRelease
  deriving DecidableEq, Repr

/-- What Load answers to the host (R118, R142). -/
inductive LoadResult where
  | ok
  | loadError
  deriving DecidableEq, Repr

/-- The five host transactions (R28). The random byte of `Cycle(r)` is drawn by the instruction that uses it
(`Config.randomByte`). -/
inductive Request where
  /-- `Reset` (R136). -/
  | reset
  /-- `Load(bytes, at)` (R142); `none` for `at` is the default `LOAD_ADDR`. -/
  | load (bytes : List Byte) (base : Option Nat)
  /-- `Cycle` (R53). -/
  | cycle
  /-- `Tick` (R115). -/
  | tick
  /-- `SetKey(k, pressed)` (R116). -/
  | setKey (k : Nat) (pressed : Bool)
  deriving DecidableEq, Repr

/-- The display buffer: a list of rows from the top, each a list of pixels from the left (R22). -/
abbrev Grid := List (List Bool)

/-- Memory that differs from its reset contents: cells with strictly rising addresses, none holding what an unlisted
address reads as (`resetByte`, in Machine/Ops.lean). -/
abbrev Memory := List Host.Cell

/-- The state: the record of R27, then four fields of the model's own at the host boundary. -/
structure State where
  /-- `V[0]`..`V[15]`; `V[15]` is also the flag VF (R16, R17). -/
  v : Vector Byte 16
  /-- `I` (R19). -/
  i : Word
  /-- `PC` (R18). -/
  pc : Word
  /-- `S[0]`..`S[15]` (R20). -/
  stack : Vector Word 16
  /-- `SP`, the number of stack entries in use (R20). -/
  sp : Fin 17
  /-- `DT` (R21). -/
  dt : Byte
  /-- `ST` (R21). -/
  st : Byte
  /-- `D` (R22). -/
  display : Grid
  /-- `M` (R25). -/
  mem : Memory
  /-- `K`, the live key latch; `true` is pressed (R23). -/
  keys : Vector Bool 16
  /-- `KS`, the snapshot of the latch (R23). -/
  snap : Vector Bool 16
  /-- `kw` (R23). -/
  kw : KeyWait
  /-- `kdet` (R23). -/
  kdet : Fin 16
  /-- `fault` (R24). -/
  fault : FaultCause
  /-- `fault_pc` (R24). -/
  faultPc : Word
  /-- `fault_addr` (R24). -/
  faultAddr : Nat
  /-- The configuration of R7 this machine has; no step changes it (log entry 2). The model's own field. -/
  cfg : Config
  /-- How many random bytes have been drawn (R89; log entry 1). The model's own field. -/
  draws : Nat
  /-- The host's requests not yet performed, in the order they will be (R28, R30; log entry 4). The model's own field. -/
  inbox : List Request
  /-- The answer to the latest Load, none before any (R142; log entry 5). The model's own field. -/
  reply : Option LoadResult
  deriving DecidableEq, Repr

/-- The reasons a step can stop with a fault: there is none. Every fault the spec names has an entry the spec describes
(R121), so raising it is a next state whose fault record is set, and a Cycle after it changes nothing (R54). Nothing raises
this type; safe. -/
inductive Fault where
  deriving DecidableEq, Repr

/-- The reasons a step is refused. -/
inductive Refusal where
  /-- Raised by an arm of `exec` for an instruction without a meaning; no arm raises it, every instruction has one. Safe. -/
  | notModelled (mnemonic : String)
  /-- Raised by `SetKey` with an index outside 0..15: no legal call, and a model must refuse it (R116, decision D31). Safe. -/
  | keyIndexOutOfRange (k : Nat)
  deriving DecidableEq, Repr

/-- What a step or a meaning answers. -/
abbrev Result := Host.Outcome State Fault Refusal

/-- Reset under a given configuration (R136, R137). The zeros are the spec's decision D15 (log entry 6;
UNVERIFIED there, unsafe). The memory lists
nothing: the font of R140 and zero elsewhere are what unlisted addresses read as. -/
def State.resetWith (c : Config) : State :=
  { v := Vector.replicate 16 0
    i := 0
    pc := 0x200
    stack := Vector.replicate 16 0
    sp := 0
    dt := 0
    st := 0
    display := List.replicate c.height (List.replicate c.width false)
    mem := []
    keys := Vector.replicate 16 false
    snap := Vector.replicate 16 false
    kw := .idle
    kdet := 0
    fault := .none
    faultPc := 0
    faultAddr := 0
    cfg := c
    draws := 0
    inbox := []
    reply := none }

/-- The machine right after reset, with the default configuration of R7. -/
def State.reset : State := State.resetWith Config.default

end Sys2Proof.Machine
end

