-- ==== Sys2Proof/Machine/Ops.lean ====
section
/-! DEFINITION. The named operations over the state: registers, memory, the call stack, the program counter, taking a
fault, and the steps of a Cycle before an instruction executes. -/

namespace Sys2Proof.Machine

/-! ## Registers (R11, R16) -/

/-- The number of the flag register VF (R17). -/
def vf : Nibble := 0xF

/-- `V[x]`. -/
def State.reg (s : State) (x : Nibble) : Byte := s.v[x.toNat]'(x.isLt)

/-- `V[x] <- b`. -/
def State.setReg (s : State) (x : Nibble) (b : Byte) : State := { s with v := s.v.set x.toNat b x.isLt }

/-- VF is written first and the result second, so with `x = F` the result stays (R79, decision D8 of the spec). -/
def State.setFlagThenReg (s : State) (flag : Byte) (x : Nibble) (b : Byte) : State := (s.setReg vf flag).setReg x b

/-- `I <- w`. -/
def State.setI (s : State) (w : Word) : State := { s with i := w }

/-- `DT <- b`. -/
def State.setDt (s : State) (b : Byte) : State := { s with dt := b }

/-- `ST <- b`. -/
def State.setSt (s : State) (b : Byte) : State := { s with st := b }

/-! ## Memory (R12, R25, R31) -/

/-- The byte an unlisted address reads as: the reset contents, the font at 0x000..0x04F and 0 elsewhere (R38, R136). -/
def resetByte (c : Config) (a : Nat) : Byte :=
  if h : a < 80 then (c.font[a / 5]'(by omega))[a % 5]'(by omega) else 0

/-- The byte listed at an address, if one is. -/
def Memory.find? : Memory → Nat → Option Byte
  | [], _ => none
  | (b, x) :: m, a => if b = a then some x else Memory.find? m a

/-- The list with a cell put at its place by address, replacing the one there. -/
def Memory.put : Memory → Nat → Byte → Memory
  | [], a, x => [(a, x)]
  | (b, y) :: m, a, x =>
    if b < a then (b, y) :: Memory.put m a x
    else if b = a then (a, x) :: m
    else (a, x) :: (b, y) :: m

/-- The list without any cell at an address. -/
def Memory.erase (m : Memory) (a : Nat) : Memory := m.filter fun p => p.1 != a

/-- A write that keeps the canonical form: a byte equal to the reset contents is not listed. -/
def Memory.write (c : Config) (m : Memory) (a : Nat) (x : Byte) : Memory :=
  if x = resetByte c a then Memory.erase m a else Memory.put m a x

/-- The canonical form: strictly rising addresses below 4096, no cell equal to the reset contents of its address. -/
abbrev Memory.wf (c : Config) (m : Memory) : Prop :=
  m.Pairwise (fun p q => p.1 < q.1) ∧ ∀ p ∈ m, p.1 ≤ 0xFFF ∧ p.2 ≠ resetByte c p.1

/-- `M[a]` (R12). The address has been checked by `rangeFault` where an instruction makes the access. -/
def State.readByte (s : State) (a : Nat) : Byte := (Memory.find? s.mem a).getD (resetByte s.cfg a)

/-- `M[a] <- b` (R12), the address already checked. -/
def State.writeByte (s : State) (a : Nat) (b : Byte) : State := { s with mem := Memory.write s.cfg s.mem a b }

/-- Bytes stored at rising addresses from `a` on (R95, R96, R142). -/
def State.storeBytes : State → Nat → List Byte → State
  | s, _, [] => s
  | s, a, b :: bs => (s.writeByte a b).storeBytes (a + 1) bs

/-- The range check made before any access of a range of `count` bytes from `base` (R40, R41): the address an
AddressFault names, which is the first of the range above 0xFFF, or none. An empty range has no access and no fault. -/
def rangeFault (base : Nat) : Nat → Option Nat
  | 0 => none
  | kmax + 1 => if base + kmax > 0xFFF then some (max base 0x1000) else none

/-! ## The call stack (R20) -/

/-- Push; none when 16 entries are in use. -/
def State.push (s : State) (w : Word) : Option State :=
  if h : s.sp.val < 16 then
    some { s with stack := s.stack.set s.sp.val w h, sp := ⟨s.sp.val + 1, by omega⟩ }
  else none

/-- Pop: the top entry and the state with it taken off; none when the stack is empty. -/
def State.pop (s : State) : Option (Word × State) :=
  if h : 0 < s.sp.val then
    some (s.stack[s.sp.val - 1]'(by omega), { s with sp := ⟨s.sp.val - 1, by omega⟩ })
  else none

/-! ## The program counter (R18) -/

/-- `PC <- w`. -/
def State.setPc (s : State) (w : Word) : State := { s with pc := w }

/-- The advance after a fetch (R56). -/
def State.advance (s : State) : State := s.setPc (s.pc + 2)

/-- A skip: a further 2 when the condition holds (R65). -/
def State.skipIf (s : State) (c : Bool) : State := if c then s.setPc (s.pc + 2) else s

/-- The key-wait's return to its own address (R113). -/
def State.rewind (s : State) : State := s.setPc (s.pc - 2)

/-! ## Taking a fault (R121) -/

/-- Fault entry at instruction address `p`: the record is written and `PC` is `p`; nothing else changes (R121, R122). -/
def State.enterFault (s : State) (cause : FaultCause) (p : Word) (addr : Nat) : State :=
  { s with fault := cause, faultPc := p, faultAddr := if cause = .addressFault then addr else 0, pc := p }

/-- An executing instruction raises a fault. Its address is `PC - 2`, the fetch's advance undone (R121). -/
def State.raise (s : State) (cause : FaultCause) (addr : Nat) : State := s.enterFault cause (s.pc - 2) addr

/-- An instruction that accesses `count` bytes from `base`: it raises AddressFault if the range leaves memory (R41), and
otherwise has the effect `next`. -/
def withRange (s : State) (base count : Nat) (next : State) : State :=
  match rangeFault base count with
  | some a => s.raise .addressFault a
  | none => next

/-! ## Before an instruction executes (R53) -/

/-- The snapshot step at the start of a Cycle (R55). -/
def State.snapshot (s : State) : State := if s.kw = .idle then { s with snap := s.keys } else s

/-- The fetch at `PC` (R40): the word, high byte at the lower address (R32), or the address of an AddressFault. -/
def State.fetch (s : State) : Except Nat (Byte × Byte) :=
  match rangeFault s.pc.toNat 2 with
  | some a => .error a
  | none => .ok (s.readByte s.pc.toNat, s.readByte (s.pc.toNat + 1))

end Sys2Proof.Machine
end

