-- ==== Sys2Proof/Machine/Operands.lean ====
section
/-! DEFINITION. What the instructions compute from their operand fields (spec/30_encoding.md R52): immediates, key indexes,
glyph addresses, decimal digits, register lists. No immediate is sign-extended, scaled or shifted. -/

namespace Sys2Proof.Machine

/-- `zext_16(addr)` (R52). -/
def zextAddr (addr : Addr) : Word := addr.zeroExtend 16

/-- The target of `JP V0`: `addr + V[0]`, at most 0x10FE, so 16 bits hold it (R74). -/
def State.indexedTarget (s : State) (addr : Addr) : Word := zextAddr addr + (s.reg 0).zeroExtend 16

/-- The sum `I + V[x]` modulo 65536 (R93, decision D6 of the spec). -/
def State.indexPlusReg (s : State) (x : Nibble) : Word := s.i + (s.reg x).zeroExtend 16

/-- `5 * (V[x] AND 0xF)`, the address of a font glyph (R94). -/
def State.glyphAddr (s : State) (x : Nibble) : Word := 5 * ((s.reg x).zeroExtend 16 &&& 0xF)

/-- The digits `Fx33` stores: hundreds, tens, ones (R95). -/
def bcdDigits (b : Byte) : List Byte :=
  [BitVec.ofNat 8 (b.toNat / 100), BitVec.ofNat 8 (b.toNat / 10 % 10), BitVec.ofNat 8 (b.toNat % 10)]

/-- `V[0]`..`V[x]` in rising order (R96). -/
def State.regsUpTo (s : State) (x : Nibble) : List Byte := s.v.toList.take (x.toNat + 1)

/-- The register file after `V[i] <- M[I + i]` for `i` in `0..x` (R97). -/
def State.loadedRegs (s : State) (x : Nibble) : Vector Byte 16 :=
  Vector.ofFn fun j : Fin 16 => if j.val ≤ x.toNat then s.readByte (s.i.toNat + j.val) else s.v[j]

/-- `I + x + 1` modulo 65536 (R96, R97, decision D6 of the spec). -/
def State.indexPast (s : State) (x : Nibble) : Word := s.i + BitVec.ofNat 16 (x.toNat + 1)

/-- The live state of the key `V[x] AND 0xF` (R110, R111). -/
def State.keyOf (s : State) (x : Nibble) : Bool := s.keys[(s.reg x).toNat % 16]'(by omega)

/-- The lowest key whose live state differs from the snapshot (R112, decision D11 of the spec). -/
def State.changedKey (s : State) : Option (Fin 16) := (List.finRange 16).find? fun k => s.keys[k] != s.snap[k]

end Sys2Proof.Machine
end

