-- ==== Sys2Proof/Machine/Flags.lean ====
section
/-! DEFINITION. The flag values VF receives and the results beside them (spec/41_alu.md R79 to R88, spec/43_display.md R103).
Each takes the latched operand values. VF is the machine's only flag (spec/10_state.md R17). -/

namespace Sys2Proof.Machine

/-- A flag as the byte VF receives: 1 or 0. -/
def flagByte (c : Bool) : Byte := if c then 1 else 0

/-- Carry of `a + b`: the exact sum is above 255 (R84). -/
def carry (a b : Byte) : Byte := flagByte (255 < a.toNat + b.toNat)

/-- No borrow in `a - b`: the minuend is at least the subtrahend (R85, R87). -/
def noBorrow (a b : Byte) : Byte := flagByte (b.toNat ≤ a.toNat)

/-- `(a + b) mod 256` (R78, R84). -/
def sum8 (a b : Byte) : Byte := BitVec.ofNat 8 (a.toNat + b.toNat)

/-- `(a - b) mod 256`, that is `a - b + 256` when `a < b` (R85, R87). -/
def diff8 (a b : Byte) : Byte := BitVec.ofNat 8 (a.toNat + 256 - b.toNat)

/-- The bit `SHR` shifts out (R86). -/
def lowBit (a : Byte) : Byte := a &&& 1

/-- The bit `SHL` shifts out (R88). -/
def highBit (a : Byte) : Byte := a >>> 7

/-- The collision flag of a draw: 1 when some pixel went from 1 to 0 (R103). -/
def collisionFlag (hit : Bool) : Byte := flagByte hit

end Sys2Proof.Machine
end

