-- ==== Sys2Proof/Machine/Alu.lean ====
section
/-! DEFINITION. Register arithmetic and logic (spec/41_alu.md). The operands are read from the state the instruction starts
in, so they are latched before VF is written (R79). -/

namespace Sys2Proof.Machine

/-- LD Vx, kk (R77). -/
def execLdVxKk (x : Nibble) (kk : Byte) (s : State) : Result := .next (s.setReg x kk)

/-- ADD Vx, kk: no flag (R78). -/
def execAddVxKk (x : Nibble) (kk : Byte) (s : State) : Result := .next (s.setReg x (sum8 (s.reg x) kk))

/-- LD Vx, Vy: no flag (R80). -/
def execLdVxVy (x y : Nibble) (s : State) : Result := .next (s.setReg x (s.reg y))

/-- OR Vx, Vy (R81). -/
def execOrVxVy (x y : Nibble) (s : State) : Result := .next (s.setFlagThenReg 0 x (s.reg x ||| s.reg y))

/-- AND Vx, Vy (R82). -/
def execAndVxVy (x y : Nibble) (s : State) : Result := .next (s.setFlagThenReg 0 x (s.reg x &&& s.reg y))

/-- XOR Vx, Vy (R83). -/
def execXorVxVy (x y : Nibble) (s : State) : Result := .next (s.setFlagThenReg 0 x (s.reg x ^^^ s.reg y))

/-- ADD Vx, Vy (R84). -/
def execAddVxVy (x y : Nibble) (s : State) : Result :=
  .next (s.setFlagThenReg (carry (s.reg x) (s.reg y)) x (sum8 (s.reg x) (s.reg y)))

/-- SUB Vx, Vy (R85). -/
def execSubVxVy (x y : Nibble) (s : State) : Result :=
  .next (s.setFlagThenReg (noBorrow (s.reg x) (s.reg y)) x (diff8 (s.reg x) (s.reg y)))

/-- SHR Vx: `V[x]` in place (R86, decision D9 of the spec). -/
def execShrVx (x : Nibble) (s : State) : Result := .next (s.setFlagThenReg (lowBit (s.reg x)) x (s.reg x >>> 1))

/-- SUBN Vx, Vy (R87). -/
def execSubnVxVy (x y : Nibble) (s : State) : Result :=
  .next (s.setFlagThenReg (noBorrow (s.reg y) (s.reg x)) x (diff8 (s.reg y) (s.reg x)))

/-- SHL Vx: `V[x]` in place (R88, decision D9 of the spec). -/
def execShlVx (x : Nibble) (s : State) : Result := .next (s.setFlagThenReg (highBit (s.reg x)) x (s.reg x <<< 1))

/-- A random byte is drawn: the next index is used up (R89; log entry 1). -/
def State.countDraw (s : State) : State := { s with draws := s.draws + 1 }

/-- RND Vx, kk given the random byte `r` (R89). -/
def State.rndWith (s : State) (r : Byte) (x : Nibble) (kk : Byte) : State := s.countDraw.setReg x (r &&& kk)

/-- RND Vx, kk: the byte is the free value of R89. -/
def execRnd (x : Nibble) (kk : Byte) (s : State) : Result := .next (s.rndWith (Config.randomByte s.draws) x kk)

end Sys2Proof.Machine
end

