-- ==== Sys2Proof/Machine/Display.lean ====
section
/-! DEFINITION. The display buffer and the sprite compositor (spec/43_display.md). -/

namespace Sys2Proof.Machine

/-- `D[r][c]`; a place outside the grid reads as 0. -/
def Grid.pixel (d : Grid) (r c : Nat) : Bool := (d.getD r []).getD c false

/-- `D[r][c] <- D[r][c] XOR 1`. -/
def Grid.flip (d : Grid) (r c : Nat) : Grid := d.modify r fun row => row.modify c not

/-- A clear grid of the configured size (R99). -/
def Grid.blank (c : Config) : Grid := List.replicate c.height (List.replicate c.width false)

/-- One sprite bit of 1 landing on a pixel: the pixel flips, and a pixel that was 1 sets the collision mark, which is never
unset (R103). -/
def landBit (py px : Nat) (acc : Grid × Bool) : Grid × Bool := (acc.1.flip py px, acc.2 || acc.1.pixel py px)

/-- The columns of one sprite row from column offset `c` on, `k` of them left; bit 7 is offset 0 (R101). -/
def drawBits (g : Config) (cx py : Nat) (row : Byte) : Nat → Nat → Grid × Bool → Grid × Bool
  | _, 0, acc => acc
  | c, k + 1, acc =>
    drawBits g cx py row (c + 1) k
      (if row.getLsbD (7 - c) then landBit py ((cx + c) % g.width) acc else acc)

/-- The rows of a sprite from row offset `r` on; columns and rows wrap independently (R102). -/
def drawRows (g : Config) (cx cy : Nat) : Nat → List Byte → Grid × Bool → Grid × Bool
  | _, [], acc => acc
  | r, row :: rows, acc =>
    drawRows g cx cy (r + 1) rows (drawBits g cx ((cy + r) % g.height) row 0 8 acc)

/-- The `n` sprite bytes from `I` on (R101). -/
def State.spriteBytes (s : State) (n : Nibble) : List Byte :=
  (List.range n.toNat).map fun r => s.readByte (s.i.toNat + r)

/-- `D <- d`. -/
def State.setDisplay (s : State) (d : Grid) : State := { s with display := d }

/-- CLS (R99). -/
def execCls (s : State) : Result := .next (s.setDisplay (Grid.blank s.cfg))

/-- The grid after a draw and whether a pixel went from 1 to 0. The coordinates are those latched before VF is written
(R100, decision D14 of the spec). -/
def State.composited (s : State) (x y n : Nibble) : Grid × Bool :=
  drawRows s.cfg (s.reg x).toNat (s.reg y).toNat 0 (s.spriteBytes n) (s.display, false)

/-- DRW Vx, Vy, n (R100). -/
def execDrw (x y n : Nibble) (s : State) : Result :=
  .next (withRange s s.i.toNat n.toNat
    ((s.setDisplay (s.composited x y n).1).setReg vf (collisionFlag (s.composited x y n).2)))

end Sys2Proof.Machine
end

