-- ==== Sys2Proof/Machine/Flow.lean ====
section
/-! DEFINITION. Control flow (spec/40_flow.md) and the default no-op (spec/30_encoding.md R61). Every meaning here and in
the other families runs with `PC` already at the instruction's address plus 2 (R56). -/

namespace Sys2Proof.Machine

/-- SYS addr: a no-op (R66). -/
def execSys (_addr : Addr) (s : State) : Result := .next s

/-- The default arm: a no-op (R61). -/
def execNop (_word : Word) (s : State) : Result := .next s

/-- RET (R67). -/
def execRet (s : State) : Result :=
  match s.pop with
  | some (w, t) => .next (t.setPc w)
  | none => .next (s.raise .stackUnderflow 0)

/-- JP addr (R68). -/
def execJp (addr : Addr) (s : State) : Result := .next (s.setPc (zextAddr addr))

/-- CALL addr (R69): the pushed value is the already advanced `PC`. -/
def execCall (addr : Addr) (s : State) : Result :=
  match s.push s.pc with
  | some t => .next (t.setPc (zextAddr addr))
  | none => .next (s.raise .stackOverflow 0)

/-- SE Vx, kk (R70). -/
def execSeVxKk (x : Nibble) (kk : Byte) (s : State) : Result := .next (s.skipIf (s.reg x == kk))

/-- SNE Vx, kk (R71). -/
def execSneVxKk (x : Nibble) (kk : Byte) (s : State) : Result := .next (s.skipIf (s.reg x != kk))

/-- SE Vx, Vy (R72). -/
def execSeVxVy (x y : Nibble) (s : State) : Result := .next (s.skipIf (s.reg x == s.reg y))

/-- SNE Vx, Vy (R73). -/
def execSneVxVy (x y : Nibble) (s : State) : Result := .next (s.skipIf (s.reg x != s.reg y))

/-- JP V0, addr (R74). -/
def execJpV0 (addr : Addr) (s : State) : Result := .next (s.setPc (s.indexedTarget addr))

end Sys2Proof.Machine
end

