-- ==== Sys2Proof/Machine/IndexMemory.lean ====
section
/-! DEFINITION. The index register and memory transfers (spec/42_index_memory.md). A data range is checked whole before any
access (R41), so an instruction that faults writes nothing. -/

namespace Sys2Proof.Machine

/-- LD I, addr (R92). -/
def execLdIAddr (addr : Addr) (s : State) : Result := .next (s.setI (zextAddr addr))

/-- ADD I, Vx: VF is not written (R93). -/
def execAddIVx (x : Nibble) (s : State) : Result := .next (s.setI (s.indexPlusReg x))

/-- LD F, Vx (R94). R98 says that `Fx29` never changes `I`; R94 and R19 have it write `I`, and they are followed (log entry 24;
DEDUCED, safe). -/
def execLdFVx (x : Nibble) (s : State) : Result := .next (s.setI (s.glyphAddr x))

/-- LD B, Vx: I is not changed (R95). -/
def execLdBVx (x : Nibble) (s : State) : Result :=
  .next (withRange s s.i.toNat 3 (s.storeBytes s.i.toNat (bcdDigits (s.reg x))))

/-- LD [I], Vx: the index advances after the stores (R96). -/
def execLdMemVx (x : Nibble) (s : State) : Result :=
  .next (withRange s s.i.toNat (x.toNat + 1) ((s.storeBytes s.i.toNat (s.regsUpTo x)).setI (s.indexPast x)))

/-- `V <- w`, the whole register file. -/
def State.setRegs (s : State) (w : Vector Byte 16) : State := { s with v := w }

/-- LD Vx, [I]: the index advances after the loads (R97). -/
def execLdVxMem (x : Nibble) (s : State) : Result :=
  .next (withRange s s.i.toNat (x.toNat + 1) ((s.setRegs (s.loadedRegs x)).setI (s.indexPast x)))

end Sys2Proof.Machine
end

