-- ==== Sys2Proof/Machine/TimersInput.lean ====
section
/-! DEFINITION. Timers and input (spec/44_timers_input.md): the timer instructions, the key skips, the key-wait. -/

namespace Sys2Proof.Machine

/-- LD Vx, DT (R107). -/
def execLdVxDt (x : Nibble) (s : State) : Result := .next (s.setReg x s.dt)

/-- LD DT, Vx (R108). -/
def execLdDtVx (x : Nibble) (s : State) : Result := .next (s.setDt (s.reg x))

/-- LD ST, Vx (R109). -/
def execLdStVx (x : Nibble) (s : State) : Result := .next (s.setSt (s.reg x))

/-- SKP Vx: the live latch is tested (R110). -/
def execSkp (x : Nibble) (s : State) : Result := .next (s.skipIf (s.keyOf x))

/-- SKNP Vx (R111). -/
def execSknp (x : Nibble) (s : State) : Result := .next (s.skipIf (!s.keyOf x))

/-- `kw <- k`. -/
def State.setKw (s : State) (k : KeyWait) : State := { s with kw := k }

/-- `kdet <- k`. -/
def State.setKdet (s : State) (k : Fin 16) : State := { s with kdet := k }

/-- The key-wait in state `idle` or `awaiting_press` (R113): the lowest changed key is detected, or the wait goes on. -/
def State.seekKey (s : State) : State :=
  match s.changedKey with
  | some k => ((s.setKdet k).setKw .awaitingRelease).rewind
  | none => (s.setKw .awaitingPress).rewind

/-- The key-wait in state `awaiting_release` (R113): it ends when the detected key is up. -/
def State.seekRelease (s : State) (x : Nibble) : State :=
  if s.keys[s.kdet] then s.rewind else (s.setReg x (BitVec.ofNat 8 s.kdet.val)).setKw .idle

/-- LD Vx, K (R113). -/
def execLdVxK (x : Nibble) (s : State) : Result :=
  match s.kw with
  | .idle => .next s.seekKey
  | .awaitingPress => .next s.seekKey
  | .awaitingRelease => .next (s.seekRelease x)

end Sys2Proof.Machine
end

