-- ==== Sys2Proof/Machine/Cycle.lean ====
section
/-! DEFINITION. One Cycle: snapshot, fetch, advance, execute (spec/30_encoding.md R53 to R58). -/

namespace Sys2Proof.Machine

/-- `Cycle` (R53). While a fault is recorded it changes nothing (R54); a fetch outside memory raises AddressFault at the
unadvanced `PC`, the snapshot staying (R40, R55). -/
def cycle (s : State) : Result :=
  if s.fault = .none then
    match s.snapshot.fetch with
    | .error a => .next (s.snapshot.enterFault .addressFault s.pc a)
    | .ok (hi, lo) => exec (decodeWord (wordOfBytes hi lo)) s.snapshot.advance
  else .next s

end Sys2Proof.Machine
end

