-- ==== Sys2Proof/Machine/Transactions.lean ====
section
/-! DEFINITION. The host boundary: the five transactions (spec/10_state.md R28) and the outputs the host reads
(spec/60_exceptions.md R128 to R130). -/

namespace Sys2Proof.Machine

/-- One timer's countdown, saturating at 0 (R115). -/
def countDown (b : Byte) : Byte := if b = 0 then 0 else b - 1

/-- `Tick` (R115): performed whatever `fault` and `kw` are. -/
def State.tick (s : State) : State := { s with dt := countDown s.dt, st := countDown s.st }

/-- `SetKey` with a legal index (R116): the live latch only. -/
def State.setKey (s : State) (k : Fin 16) (pressed : Bool) : State := { s with keys := s.keys.set k.val pressed }

/-- The host is answered. -/
def State.answer (s : State) (r : LoadResult) : State := { s with reply := some r }

/-- `Load` (R142): the check precedes any write, and only memory (and the answer) changes. -/
def State.load (s : State) (bytes : List Byte) (base : Nat) : State :=
  if base + bytes.length > 4096 then s.answer .loadError else (s.storeBytes base bytes).answer .ok

/-- `Reset` (R136): every element of the block at its reset value, under the machine's own configuration. The host's
requests and its latest answer are not the block's, and the count of random draws goes on, so that no draw after a Reset is
one made before it (log entries 1, 4, 5). -/
def State.resetBlock (s : State) : State :=
  { State.resetWith s.cfg with draws := s.draws, inbox := s.inbox, reply := s.reply }

/-- A host request performed (R28). An index of SetKey outside 0..15 is refused (R116). -/
def perform (r : Request) (s : State) : Result :=
  match r with
  | .reset => .next s.resetBlock
  | .load bytes base => .next (s.load bytes (base.getD s.cfg.loadAddr))
  | .cycle => cycle s
  | .tick => .next s.tick
  | .setKey k pressed => if h : k < 16 then .next (s.setKey ⟨k, h⟩ pressed) else .refused (.keyIndexOutOfRange k)

/-- The next transaction: the request at the head of the inbox, taken off it, and a Cycle when the host asks for nothing
else (R28, R30; log entry 4). -/
def transact (s : State) : Result :=
  match s.inbox with
  | [] => cycle s
  | r :: rest => perform r { s with inbox := rest }

/-! ## Outputs -/

/-- The sound output (R129). -/
def State.soundActive (s : State) : Bool := s.st != 0

/-- The display output (R128). -/
def State.displayOut (s : State) : Grid := s.display

/-- The cause codes of R117. -/
def FaultCause.code : FaultCause → Nat
  | .none => 0
  | .stackOverflow => 1
  | .stackUnderflow => 2
  | .addressFault => 3

/-- The code of a Load's answer: 4 for LoadError (R118). The spec gives `ok` no number; 0 is the model's (log entry 25; DESIGN
CHOICE, safe). -/
def LoadResult.code : LoadResult → Nat
  | .ok => 0
  | .loadError => 4

/-- The status output (R130): the cause code, `fault_pc` and `fault_addr`. -/
def State.status (s : State) : Nat × Word × Nat := (s.fault.code, s.faultPc, s.faultAddr)

/-! ## Placing an instruction -/

/-- Where the host places an instruction for the next fetch: `PC` if two bytes fit there, else the reset `PC`. -/
def State.fetchSite (s : State) : Word := if s.pc.toNat ≤ 0xFFE then s.pc else 0x200

/-- The state with an instruction word placed where the next step fetches it, and nothing in the way of that fetch: no
request pending, no fault recorded, `PC` inside memory (log entry 7). -/
def State.placeWord (s : State) (w : Word) : State :=
  { s.storeBytes s.fetchSite.toNat (bytesOfWord w) with
    inbox := [], fault := .none, faultPc := 0, faultAddr := 0, pc := s.fetchSite }

end Sys2Proof.Machine
end

