-- ==== Sys2Proof/Machine/Step.lean ====
section
/-! DEFINITION. The fixed names the host runs: one step, and a word placed where a step fetches. -/

namespace Sys2Proof.Machine

/-- One step: the next transaction of the block (spec/10_state.md R28, R30). -/
def step (s : State) : Host.Outcome State Fault Refusal := transact s

/-- `s` with the table's word stored where `step` fetches its next instruction (see `State.placeWord`). -/
def State.withFetchWord (s : State) (nbits w : Nat) : State := s.placeWord (BitVec.ofNat 16 (w % 2 ^ nbits))

end Sys2Proof.Machine
end

