-- ==== Sys2Proof/Safety.lean ====
section
/-! DEFINITION. The terms the statements are made in: the invariant, a safe state, the end of a run, and what a step leaves
as it was. -/

namespace Sys2Proof.Machine

/-- The display has `H` rows of `W` pixels (R22). -/
abbrev gridShape (c : Config) (d : Grid) : Prop := d.length = c.height ∧ ∀ row ∈ d, row.length = c.width

/-- The fault record agrees with itself and with `PC` (R24, R121): no fault means a clear record; a fault leaves `PC` at the
faulting address; an address is recorded exactly for AddressFault, and it is one outside memory that 16 bits can reach. -/
structure State.FaultRecordOk (s : State) : Prop where
  clear : s.fault = .none → s.faultPc = 0 ∧ s.faultAddr = 0
  atFault : s.fault ≠ .none → s.pc = s.faultPc
  noAddr : s.fault ≠ .addressFault → s.faultAddr = 0
  addr : s.fault = .addressFault → 0x1000 ≤ s.faultAddr ∧ s.faultAddr ≤ 0xFFFF

/-- Every stack entry in use is an address a CALL can push: two past an address a fetch can succeed at (R67, R69). -/
def State.StackOk (s : State) : Prop := ∀ k : Fin 16, k.val < s.sp.val → 2 ≤ s.stack[k].toNat ∧ s.stack[k].toNat ≤ 0x1000

/-- The invariant every step keeps: legal dimensions (R7), the canonical memory, the display's shape, a consistent fault
record, a stack of return addresses. -/
structure State.Inv (s : State) : Prop where
  cfg : s.cfg.Ok
  mem : Memory.wf s.cfg s.mem
  display : gridShape s.cfg s.display
  record : s.FaultRecordOk
  stack : s.StackOk

/-- A safe state: no fault has been recorded (R24). -/
abbrev State.Safe (s : State) : Prop := s.fault = .none

/-- The word whose bytes stand at `a` and `a + 1` (R32). -/
def State.wordAt (s : State) (a : Nat) : Word := wordOfBytes (s.readByte a) (s.readByte (a + 1))

/-- A fetch at `PC` succeeds (R40). -/
abbrev State.FetchOk (s : State) : Prop := s.pc.toNat ≤ 0xFFE

/-- The next transaction is a Cycle: the host asks for one or for nothing else. -/
abbrev State.CycleNext (s : State) : Prop := s.inbox = [] ∨ ∃ rest, s.inbox = .cycle :: rest

/-- The requests left after the next transaction. -/
def State.popRequest (s : State) : State := { s with inbox := s.inbox.tail }

/-- The end of a run (R135): no fault, and the word at `PC` is a jump to `PC` itself. -/
abbrev State.AtHalt (s : State) : Prop := s.Safe ∧ s.FetchOk ∧ s.wordAt s.pc.toNat = wordA 0x1 (s.pc.setWidth 12)

/-- Every byte of memory reads as before. -/
def SameBytes (s t : State) : Prop := ∀ a, t.readByte a = s.readByte a

/-- Every byte outside the `count` bytes from `base` reads as before. -/
def SameBytesOutside (s t : State) (base count : Nat) : Prop :=
  ∀ a, a < base ∨ base + count ≤ a → t.readByte a = s.readByte a

/-- Every general register but those `p` names reads as before. -/
def SameRegsBut (s t : State) (p : Nibble → Prop) : Prop := ∀ r, ¬ p r → t.reg r = s.reg r

/-- The sprite bit at row `r`, column `c` of the sprite at `I` (R101). -/
def State.spriteBit (s : State) (r c : Nat) : Bool := (s.readByte (s.i.toNat + r)).getLsbD (7 - c)

/-- The offsets in an `n`-row sprite drawn at column `cx`, row `cy` whose bit is 1 and lands on the pixel (`py`, `px`)
(R102, R104). -/
def State.landings (s : State) (cx cy n py px : Nat) : List (Nat × Nat) :=
  ((List.range n).flatMap fun r => (List.range 8).map fun c => (r, c)).filter fun rc =>
    s.spriteBit rc.1 rc.2 && ((cy + rc.1) % s.cfg.height == py && (cx + rc.2) % s.cfg.width == px)

/-- Every element of the block at the value R137 gives it, memory holding `c.font` and zero elsewhere (R136). -/
structure State.AtReset (s : State) (c : Config) : Prop where
  v : ∀ x, s.reg x = 0
  i : s.i = 0
  pc : s.pc = 0x200
  stack : ∀ k : Fin 16, s.stack[k] = 0
  sp : s.sp = 0
  timers : s.dt = 0 ∧ s.st = 0
  display : gridShape c s.display ∧ ∀ row ∈ s.display, ∀ pixel ∈ row, pixel = false
  font : ∀ (d : Fin 16) (r : Fin 5), s.readByte (5 * d.val + r.val) = c.font[d][r]
  mem : ∀ a, 0x050 ≤ a → a ≤ 0xFFF → s.readByte a = 0
  keys : ∀ k : Fin 16, s.keys[k] = false ∧ s.snap[k] = false
  wait : s.kw = .idle ∧ s.kdet = 0
  record : s.fault = .none ∧ s.faultPc = 0 ∧ s.faultAddr = 0
  cfg : s.cfg = c

/-- The fault an instruction raises in a state, by the conditions of R117; every other instruction raises none (R119). -/
def State.causeOf (s : State) : Instr → FaultCause
  | .call _ => if s.sp.val = 16 then .stackOverflow else .none
  | .ret => if s.sp.val = 0 then .stackUnderflow else .none
  | .drw _ _ n => if 0 < n.toNat ∧ 0xFFF < s.i.toNat + n.toNat - 1 then .addressFault else .none
  | .ldBVx _ => if 0xFFF < s.i.toNat + 2 then .addressFault else .none
  | .ldMemVx x => if 0xFFF < s.i.toNat + x.toNat then .addressFault else .none
  | .ldVxMem x => if 0xFFF < s.i.toNat + x.toNat then .addressFault else .none
  | _ => .none

/-- `k` is the lowest key whose live state differs from the snapshot (R112). -/
def State.LowestChanged (s : State) (k : Fin 16) : Prop :=
  s.keys[k] ≠ s.snap[k] ∧ ∀ j : Fin 16, j < k → s.keys[j] = s.snap[j]

/-- `s` after a fault taken at address `p`: the record and `PC`, and nothing else (R121). -/
def State.faulted (s : State) (cause : FaultCause) (p : Word) (addr : Nat) : State :=
  { s with fault := cause, faultPc := p, faultAddr := addr, pc := p }

end Sys2Proof.Machine

namespace Sys2Proof

/-- The instructions R17 names as writers of VF as a flag, with the operand registers they name. -/
def Instr.flagOperands : Instr → Option (List Nibble)
  | .orVxVy x y => some [x, y]
  | .andVxVy x y => some [x, y]
  | .xorVxVy x y => some [x, y]
  | .addVxVy x y => some [x, y]
  | .subVxVy x y => some [x, y]
  | .shrVx x => some [x]
  | .subnVxVy x y => some [x, y]
  | .shlVx x => some [x]
  | .drw x y _ => some [x, y]
  | _ => none

/-- `V[r]` is a register the instruction may write: its destination (R77 to R89, R97, R107, R113) or, for the instructions R17
names, VF as the flag. -/
def Instr.writesReg : Instr → Nibble → Bool
  | .ldVxKk x _, r => r == x
  | .addVxKk x _, r => r == x
  | .ldVxVy x _, r => r == x
  | .orVxVy x _, r => r == x || r == Machine.vf
  | .andVxVy x _, r => r == x || r == Machine.vf
  | .xorVxVy x _, r => r == x || r == Machine.vf
  | .addVxVy x _, r => r == x || r == Machine.vf
  | .subVxVy x _, r => r == x || r == Machine.vf
  | .shrVx x, r => r == x || r == Machine.vf
  | .subnVxVy x _, r => r == x || r == Machine.vf
  | .shlVx x, r => r == x || r == Machine.vf
  | .rnd x _, r => r == x
  | .drw _ _ _, r => r == Machine.vf
  | .ldVxDt x, r => r == x
  | .ldVxK x, r => r == x
  | .ldVxMem x, r => r.toNat ≤ x.toNat
  | _, _ => false

/-- The instructions R18 names as writers of `PC`: the control transfers, the skips and the key-wait. -/
def Instr.writesPc : Instr → Bool
  | .ret => true
  | .jp _ => true
  | .call _ => true
  | .jpV0 _ => true
  | .seVxKk _ _ => true
  | .sneVxKk _ _ => true
  | .seVxVy _ _ => true
  | .sneVxVy _ _ => true
  | .skp _ => true
  | .sknp _ => true
  | .ldVxK _ => true
  | _ => false

end Sys2Proof
end

