-- ==== Sys2Proof/Certificates/Slice0/Obligations.lean ====
section
/-! DEFINITION. The statements for the provers. Statements about `exec` are over the state an instruction executes in, whose
`PC` is already the instruction's address plus 2 (R56, R58); `{ s with f := t.f } = t` says that `t` differs from `s` in the
field `f` at most. -/

open Sys2Proof Sys2Proof.Machine

/-! ## Reset and the invariant -/

/-- R136, R137: the Reset transaction, from any state, and the constant `State.reset`, leave every element of the block at
its reset value. The zeros are the spec's decision D15 (log entry 6). -/
def Obligations.ResetLeavesEveryElementAtItsResetValue : Prop :=
  (∀ s : State, ∃ t, perform .reset s = .next t ∧ t.AtReset s.cfg) ∧ State.reset.AtReset Config.default

/-- The invariant holds at reset, under any legal configuration. -/
def Obligations.ResetMeetsTheInvariant : Prop :=
  State.reset.Inv ∧ ∀ c : Config, c.Ok → (State.resetWith c).Inv

/-- Every step keeps the invariant: canonical memory, the display's shape, a consistent fault record with `PC` at the
faulting address, a stack of return addresses. -/
def Obligations.StepKeepsTheInvariant : Prop :=
  ∀ s t : State, s.Inv → step s = .next t → t.Inv

/-! ## Encoding -/

/-- Decoding an encoded well-formed instruction gives it back, in words and in bytes. -/
def Obligations.EncodeThenDecode : Prop :=
  ∀ i : Instr, i.wellFormed = true →
    decodeWord (encode i) = i ∧ ∀ rest, decode (encodeBytes i ++ rest) = .ok (i, rest)

/-- R63, R60: the opcode table's row that takes a word is the row of the instruction it decodes to, so no word is taken by
two rows; and the words no row takes are exactly the holes, which the default arm gets. -/
def Obligations.EachWordHasOneRow : Prop :=
  ∀ w : Word,
    (∀ (i : Instr) (r : Row), i.row = some r → (r.takes w = true ↔ (decodeWord w).row = some r)) ∧
    (isHole w = true ↔ decodeWord w = .nop w) ∧
    (isHole w = false → ∃ r, (decodeWord w).row = some r)

/-- R57, R60: the decoder is total onto well-formed instructions: no word is refused. -/
def Obligations.EveryWordDecodesWellFormed : Prop :=
  (∀ w : Word, (decodeWord w).wellFormed = true) ∧
  ∀ hi lo rest, decode (hi :: lo :: rest) = .ok (decodeWord (wordOfBytes hi lo), rest)

/-- Words written out from R59 and from the source's scenario decode to the instructions they stand for. -/
def Obligations.SampleWordsDecode : Prop :=
  decodeWord 0x6005 = .ldVxKk 0x0 0x05 ∧ decodeWord 0x7002 = .addVxKk 0x0 0x02 ∧
  decodeWord 0x0EE0 = .cls ∧ decodeWord 0x00EF = .sys 0x0EF ∧ decodeWord 0x2300 = .call 0x300 ∧
  decodeWord 0x8346 = .shrVx 0x3 ∧ decodeWord 0x8018 = .nop 0x8018 ∧ decodeWord 0xA300 = .ldIAddr 0x300 ∧
  decodeWord 0xDAB2 = .drw 0xA 0xB 0x2 ∧ decodeWord 0xE19E = .skp 0x1 ∧ decodeWord 0xF50A = .ldVxK 0x5

/-! ## The Cycle -/

/-- R53, R58: a step whose transaction is a Cycle, with no fault recorded and a fetch inside memory, takes the snapshot,
advances `PC` past the word and executes the instruction the word at `PC` decodes to. -/
def Obligations.StepRunsTheDecodedInstruction : Prop :=
  ∀ s : State, s.CycleNext → s.Safe → s.FetchOk →
    step s = exec (decodeWord (s.wordAt s.pc.toNat))
      { s with inbox := s.inbox.tail, snap := if s.kw = .idle then s.keys else s.snap, pc := s.pc + 2 }

/-- A step whose transaction is no Cycle performs the request at the head of the inbox, which leaves it. -/
def Obligations.StepPerformsTheNextRequest : Prop :=
  ∀ (s : State) (r : Request) (rest : List Request), s.inbox = r :: rest →
    step s = perform r { s with inbox := rest }

/-- R40: the word at `PC` is `(hi << 8) OR lo`, and a fetch that would leave memory raises AddressFault with the first
out-of-range byte's address, leaving `PC`; the snapshot is the only other change. -/
def Obligations.FetchReadsBigEndianOrFaults : Prop :=
  ∀ s : State, s.CycleNext → s.Safe →
    ((s.wordAt s.pc.toNat).toNat = (s.readByte s.pc.toNat).toNat * 256 + (s.readByte (s.pc.toNat + 1)).toNat) ∧
    (0xFFF < s.pc.toNat + 1 → ∃ t, step s = .next t ∧
      t = (({ s with inbox := s.inbox.tail, snap := t.snap } : State).faulted .addressFault s.pc
        (if s.pc.toNat ≤ 0xFFF then s.pc.toNat + 1 else s.pc.toNat)) ∧
      t.snap = if s.kw = .idle then s.keys else s.snap)

/-- R54: a Cycle requested while a fault is recorded changes no state. -/
def Obligations.FaultedCycleChangesNothing : Prop :=
  ∀ s : State, s.CycleNext → s.fault ≠ .none → step s = .next { s with inbox := s.inbox.tail }

/-- R122: faults are precise: after a Cycle that faults, everything but the fault record and the snapshot is as before the
Cycle, `PC` included. -/
def Obligations.FaultsArePrecise : Prop :=
  ∀ s t : State, s.CycleNext → s.Safe → step s = .next t → t.fault ≠ .none →
    t = { s with inbox := s.inbox.tail, snap := t.snap, fault := t.fault, faultPc := s.pc, faultAddr := t.faultAddr } ∧
    t.snap = (if s.kw = .idle then s.keys else s.snap) ∧
    (t.fault ≠ .addressFault → t.faultAddr = 0)

/-- R117, R119, R121: an instruction raises exactly the fault its condition gives, records its own address and, for an
AddressFault, the first address of its range above 0xFFF; no other instruction raises one. -/
def Obligations.InstructionsFaultExactlyWhenTheirConditionHolds : Prop :=
  ∀ (i : Instr) (s : State), s.Safe → ∃ t, exec i s = .next t ∧ t.fault = s.causeOf i ∧
    (s.causeOf i ≠ .none →
      t = s.faulted (s.causeOf i) (s.pc - 2) (if s.causeOf i = .addressFault then max s.i.toNat 0x1000 else 0))

/-- R55: at the start of every Cycle with `kw = idle` the snapshot is the live latch; otherwise it is kept; no instruction
changes it or the latch. -/
def Obligations.SnapshotIsTakenAtTheStartOfACycle : Prop :=
  ∀ s t : State, s.CycleNext → s.Safe → step s = .next t →
    t.snap = (if s.kw = .idle then s.keys else s.snap) ∧ t.keys = s.keys

/-! ## Control flow -/

/-- R61, R66: SYS and the default arm change nothing; the words they stand for are those of their rules. That SYS is a row of
its own is the spec's decision D30; that `nop` carries its word is the model's (log entry 10). -/
def Obligations.NoOpsChangeNothing : Prop :=
  (∀ (addr : Addr) (s : State), exec (.sys addr) s = .next s) ∧
  (∀ (w : Word) (s : State), exec (.nop w) s = .next s) ∧
  (∀ addr : Addr, isSysAddr addr = true → decodeWord (wordA 0x0 addr) = .sys addr) ∧
  ∀ w : Word, isHole w = true → decodeWord w = .nop w

/-- R60: a Cycle over a word that no row but SYS takes advances `PC` by 2 and changes nothing else but the snapshot. -/
def Obligations.UnmatchedWordsOnlyAdvance : Prop :=
  ∀ s : State, s.CycleNext → s.Safe → s.FetchOk →
    ((∃ addr, decodeWord (s.wordAt s.pc.toNat) = .sys addr) ∨ isHole (s.wordAt s.pc.toNat) = true) →
    step s = .next
      { s with inbox := s.inbox.tail, snap := if s.kw = .idle then s.keys else s.snap, pc := s.pc + 2 }

/-- R67: RET pops the top entry into `PC`, and raises StackUnderflow on an empty stack. What the fault leaves is R121 and R122,
the spec's decisions D7 and D4 (log entry 13); the ignored nibble is its D10 (log entry 11). -/
def Obligations.RetPopsOrFaults : Prop :=
  ∀ (s : State) (ignored : Nibble), decodeWord (wordXK 0x0 ignored 0xEE) = .ret ∧
    (∀ k : Fin 16, s.sp.val = k.val + 1 → ∃ t, exec .ret s = .next t ∧
      t.sp.val = k.val ∧ t.pc = s.stack[k] ∧ t = { s with sp := t.sp, pc := t.pc } ∧ SameBytes s t) ∧
    (s.sp = 0 → exec .ret s = .next (s.faulted .stackUnderflow (s.pc - 2) 0))

/-- R69: CALL pushes the advanced `PC` and goes to `addr`, and raises StackOverflow when 16 entries are in use. What the fault
leaves is R121 and R122, the spec's decisions D7 and D4 (log entry 13). -/
def Obligations.CallPushesOrFaults : Prop :=
  ∀ (addr : Addr) (s : State), decodeWord (wordA 0x2 addr) = .call addr ∧
    (∀ k : Fin 16, s.sp.val = k.val → ∃ t, exec (.call addr) s = .next t ∧
      t.stack[k] = s.pc ∧ (∀ j : Fin 16, j ≠ k → t.stack[j] = s.stack[j]) ∧ t.sp.val = k.val + 1 ∧
      t.pc.toNat = addr.toNat ∧ t = { s with stack := t.stack, sp := t.sp, pc := t.pc } ∧ SameBytes s t) ∧
    (s.sp.val = 16 → exec (.call addr) s = .next (s.faulted .stackOverflow (s.pc - 2) 0))

/-- R75: a RET executed in any state that has the stack as a CALL left it restores the CALL's advanced `PC` and `SP`. -/
def Obligations.ReturnUndoesCall : Prop :=
  ∀ (addr : Addr) (s u : State), s.sp.val < 16 →
    ∃ t, exec (.call addr) s = .next t ∧
      (u.sp = t.sp → (∀ k : Fin 16, k.val < t.sp.val → u.stack[k] = t.stack[k]) →
        ∃ r, exec .ret u = .next r ∧ r.pc = s.pc ∧ r.sp = s.sp)

/-- R68, R74: JP goes to `addr`; JP V0 goes to `addr + V[0]`, which never wraps. -/
def Obligations.JumpsGoToTheirTarget : Prop :=
  ∀ (addr : Addr) (s : State),
    decodeWord (wordA 0x1 addr) = .jp addr ∧ decodeWord (wordA 0xB addr) = .jpV0 addr ∧
    (∃ t, exec (.jp addr) s = .next t ∧ t.pc.toNat = addr.toNat ∧ t = { s with pc := t.pc } ∧ SameBytes s t) ∧
    (∃ t, exec (.jpV0 addr) s = .next t ∧ t.pc.toNat = addr.toNat + (s.reg 0).toNat ∧
      t = { s with pc := t.pc } ∧ SameBytes s t)

/-- R70, R71: the skips on an immediate add a further 2 to `PC` exactly when their condition holds. -/
def Obligations.SkipsOnImmediate : Prop :=
  ∀ (x : Nibble) (kk : Byte) (s : State),
    decodeWord (wordXK 0x3 x kk) = .seVxKk x kk ∧ decodeWord (wordXK 0x4 x kk) = .sneVxKk x kk ∧
    (∃ t, exec (.seVxKk x kk) s = .next t ∧
      t.pc.toNat = (if s.reg x = kk then (s.pc.toNat + 2) % 65536 else s.pc.toNat) ∧
      t = { s with pc := t.pc } ∧ SameBytes s t) ∧
    (∃ t, exec (.sneVxKk x kk) s = .next t ∧
      t.pc.toNat = (if s.reg x ≠ kk then (s.pc.toNat + 2) % 65536 else s.pc.toNat) ∧
      t = { s with pc := t.pc } ∧ SameBytes s t)

/-- R72, R73: the skips on two registers; the low nibble of the word is ignored. -/
def Obligations.SkipsOnRegisters : Prop :=
  ∀ (x y n : Nibble) (s : State),
    decodeWord (wordXY 0x5 x y n) = .seVxVy x y ∧ decodeWord (wordXY 0x9 x y n) = .sneVxVy x y ∧
    (∃ t, exec (.seVxVy x y) s = .next t ∧
      t.pc.toNat = (if s.reg x = s.reg y then (s.pc.toNat + 2) % 65536 else s.pc.toNat) ∧
      t = { s with pc := t.pc } ∧ SameBytes s t) ∧
    (∃ t, exec (.sneVxVy x y) s = .next t ∧
      t.pc.toNat = (if s.reg x ≠ s.reg y then (s.pc.toNat + 2) % 65536 else s.pc.toNat) ∧
      t = { s with pc := t.pc } ∧ SameBytes s t)

/-! ## Register arithmetic and logic -/

/-- R77, R78: load and add of an immediate, modulo 256 and with no flag (VF changes only as the destination). -/
def Obligations.ImmediateLoadAndAdd : Prop :=
  ∀ (x : Nibble) (kk : Byte) (s : State),
    decodeWord (wordXK 0x6 x kk) = .ldVxKk x kk ∧ decodeWord (wordXK 0x7 x kk) = .addVxKk x kk ∧
    (∃ t, exec (.ldVxKk x kk) s = .next t ∧ t.reg x = kk ∧ SameRegsBut s t (· = x) ∧
      t = { s with v := t.v } ∧ SameBytes s t) ∧
    (∃ t, exec (.addVxKk x kk) s = .next t ∧ (t.reg x).toNat = ((s.reg x).toNat + kk.toNat) % 256 ∧
      SameRegsBut s t (· = x) ∧ t = { s with v := t.v } ∧ SameBytes s t)

/-- R80: LD Vx, Vy copies one register and writes no flag. -/
def Obligations.RegisterCopy : Prop :=
  ∀ (x y : Nibble) (s : State), decodeWord (wordXY 0x8 x y 0x0) = .ldVxVy x y ∧
    ∃ t, exec (.ldVxVy x y) s = .next t ∧ t.reg x = s.reg y ∧ SameRegsBut s t (· = x) ∧
      t = { s with v := t.v } ∧ SameBytes s t

/-- R81, R82, R83: the logic instructions clear VF and then write the result, bit by bit; with `x = F` the result stays. -/
def Obligations.LogicClearsVfThenWritesTheResult : Prop :=
  ∀ (x y : Nibble) (s : State),
    decodeWord (wordXY 0x8 x y 0x1) = .orVxVy x y ∧ decodeWord (wordXY 0x8 x y 0x2) = .andVxVy x y ∧
    decodeWord (wordXY 0x8 x y 0x3) = .xorVxVy x y ∧
    ∀ (i : Instr) (op : Bool → Bool → Bool),
      (i = .orVxVy x y ∧ op = or) ∨ (i = .andVxVy x y ∧ op = and) ∨ (i = .xorVxVy x y ∧ op = xor) →
      ∃ t, exec i s = .next t ∧
        (∀ b < 8, (t.reg x).getLsbD b = op ((s.reg x).getLsbD b) ((s.reg y).getLsbD b)) ∧
        (x ≠ vf → t.reg vf = 0) ∧ SameRegsBut s t (fun r => r = x ∨ r = vf) ∧
        t = { s with v := t.v } ∧ SameBytes s t

/-- R84: ADD Vx, Vy: VF is the carry, then the sum modulo 256 is written; with `x = F` the sum stays. -/
def Obligations.AddSetsCarryThenSum : Prop :=
  ∀ (x y : Nibble) (s : State), decodeWord (wordXY 0x8 x y 0x4) = .addVxVy x y ∧
    ∃ t, exec (.addVxVy x y) s = .next t ∧
      (t.reg x).toNat = ((s.reg x).toNat + (s.reg y).toNat) % 256 ∧
      (x ≠ vf → t.reg vf = if (s.reg x).toNat + (s.reg y).toNat > 255 then 1 else 0) ∧
      SameRegsBut s t (fun r => r = x ∨ r = vf) ∧ t = { s with v := t.v } ∧ SameBytes s t

/-- R85, R87: SUB and SUBN: VF is 1 exactly when there is no borrow, then the difference modulo 256 is written. -/
def Obligations.SubtractsSetNoBorrowThenDifference : Prop :=
  ∀ (x y : Nibble) (s : State),
    decodeWord (wordXY 0x8 x y 0x5) = .subVxVy x y ∧ decodeWord (wordXY 0x8 x y 0x7) = .subnVxVy x y ∧
    (∃ t, exec (.subVxVy x y) s = .next t ∧
      ((t.reg x).toNat : Int) = ((s.reg x).toNat - (s.reg y).toNat : Int) % 256 ∧
      (x ≠ vf → t.reg vf = if (s.reg x).toNat ≥ (s.reg y).toNat then 1 else 0) ∧
      SameRegsBut s t (fun r => r = x ∨ r = vf) ∧ t = { s with v := t.v } ∧ SameBytes s t) ∧
    (∃ t, exec (.subnVxVy x y) s = .next t ∧
      ((t.reg x).toNat : Int) = ((s.reg y).toNat - (s.reg x).toNat : Int) % 256 ∧
      (x ≠ vf → t.reg vf = if (s.reg y).toNat ≥ (s.reg x).toNat then 1 else 0) ∧
      SameRegsBut s t (fun r => r = x ∨ r = vf) ∧ t = { s with v := t.v } ∧ SameBytes s t)

/-- R86, R88: the shifts work on `V[x]` in place; VF is the bit shifted out; the `y` field of the word is ignored. -/
def Obligations.ShiftsSetTheBitShiftedOut : Prop :=
  ∀ (x y : Nibble) (s : State),
    decodeWord (wordXY 0x8 x y 0x6) = .shrVx x ∧ decodeWord (wordXY 0x8 x y 0xE) = .shlVx x ∧
    (∃ t, exec (.shrVx x) s = .next t ∧ (t.reg x).toNat = (s.reg x).toNat / 2 ∧
      (x ≠ vf → (t.reg vf).toNat = (s.reg x).toNat % 2) ∧
      SameRegsBut s t (fun r => r = x ∨ r = vf) ∧ t = { s with v := t.v } ∧ SameBytes s t) ∧
    (∃ t, exec (.shlVx x) s = .next t ∧ (t.reg x).toNat = (s.reg x).toNat * 2 % 256 ∧
      (x ≠ vf → (t.reg vf).toNat = (s.reg x).toNat / 128) ∧
      SameRegsBut s t (fun r => r = x ∨ r = vf) ∧ t = { s with v := t.v } ∧ SameBytes s t)

/-- R89: RND masks the random byte of its own draw, which is used up; the byte is a free value, indexed by the model's own
counter (log entry 1). -/
def Obligations.RandomByteIsMasked : Prop :=
  ∀ (x : Nibble) (kk : Byte) (s : State), decodeWord (wordXK 0xC x kk) = .rnd x kk ∧
    ∃ t, exec (.rnd x kk) s = .next t ∧
      (∀ b < 8, (t.reg x).getLsbD b = ((Config.randomByte s.draws).getLsbD b && kk.getLsbD b)) ∧
      t.draws = s.draws + 1 ∧ SameRegsBut s t (· = x) ∧
      t = { s with v := t.v, draws := t.draws } ∧ SameBytes s t

/-! ## Index register and memory -/

/-- R92, R93, R94: the index register is set, added to modulo 65536 with no flag, and pointed at a glyph. The wrap is the spec's
decision D6 (log entry 18); that LD F writes `I` is R94, against R98's last sentence (log entry 24). -/
def Obligations.IndexRegisterArithmetic : Prop :=
  ∀ (addr : Addr) (x : Nibble) (s : State),
    decodeWord (wordA 0xA addr) = .ldIAddr addr ∧ decodeWord (wordXK 0xF x 0x1E) = .addIVx x ∧
    decodeWord (wordXK 0xF x 0x29) = .ldFVx x ∧
    (∃ t, exec (.ldIAddr addr) s = .next t ∧ t.i.toNat = addr.toNat ∧ t = { s with i := t.i } ∧ SameBytes s t) ∧
    (∃ t, exec (.addIVx x) s = .next t ∧ t.i.toNat = (s.i.toNat + (s.reg x).toNat) % 65536 ∧
      t = { s with i := t.i } ∧ SameBytes s t) ∧
    (∃ t, exec (.ldFVx x) s = .next t ∧ t.i.toNat = 5 * ((s.reg x).toNat % 16) ∧
      t = { s with i := t.i } ∧ SameBytes s t)

/-- R41: an instruction whose data range reaches above 0xFFF raises AddressFault with the first such address and performs
none of its accesses or writes. -/
def Obligations.DataRangesOutsideMemoryFault : Prop :=
  ∀ (i : Instr) (s : State) (kmax : Nat),
    ((∃ x y n, i = .drw x y n ∧ n.toNat = kmax + 1) ∨ (∃ x, i = .ldBVx x ∧ kmax = 2) ∨
      (∃ x, i = .ldMemVx x ∧ kmax = x.toNat) ∨ (∃ x, i = .ldVxMem x ∧ kmax = x.toNat)) →
    0xFFF < s.i.toNat + kmax →
    exec i s = .next (s.faulted .addressFault (s.pc - 2) (max s.i.toNat 0x1000))

/-- R95: LD B stores the decimal digits of `V[x]` at `I`, `I + 1`, `I + 2`, and nothing else changes. -/
def Obligations.BcdStoresThreeDigits : Prop :=
  ∀ (x : Nibble) (s : State), decodeWord (wordXK 0xF x 0x33) = .ldBVx x ∧
    (s.i.toNat + 2 ≤ 0xFFF → ∃ t, exec (.ldBVx x) s = .next t ∧
      (t.readByte s.i.toNat).toNat = (s.reg x).toNat / 100 ∧
      (t.readByte (s.i.toNat + 1)).toNat = (s.reg x).toNat / 10 % 10 ∧
      (t.readByte (s.i.toNat + 2)).toNat = (s.reg x).toNat % 10 ∧
      SameBytesOutside s t s.i.toNat 3 ∧ t = { s with mem := t.mem }) ∧
    (0xFFF < s.i.toNat + 2 →
      exec (.ldBVx x) s = .next (s.faulted .addressFault (s.pc - 2) (max s.i.toNat 0x1000)))

/-- R96: LD [I], Vx stores `V[0]`..`V[x]` at `I`.. and then advances `I` by `x + 1`. -/
def Obligations.BulkStoreStoresAndAdvances : Prop :=
  ∀ (x : Nibble) (s : State), decodeWord (wordXK 0xF x 0x55) = .ldMemVx x ∧
    (s.i.toNat + x.toNat ≤ 0xFFF → ∃ t, exec (.ldMemVx x) s = .next t ∧
      (∀ r : Nibble, r.toNat ≤ x.toNat → t.readByte (s.i.toNat + r.toNat) = s.reg r) ∧
      t.i.toNat = (s.i.toNat + x.toNat + 1) % 65536 ∧
      SameBytesOutside s t s.i.toNat (x.toNat + 1) ∧ t = { s with mem := t.mem, i := t.i }) ∧
    (0xFFF < s.i.toNat + x.toNat →
      exec (.ldMemVx x) s = .next (s.faulted .addressFault (s.pc - 2) (max s.i.toNat 0x1000)))

/-- R97: LD Vx, [I] loads `V[0]`..`V[x]` from `I`.. and then advances `I` by `x + 1`. -/
def Obligations.BulkLoadLoadsAndAdvances : Prop :=
  ∀ (x : Nibble) (s : State), decodeWord (wordXK 0xF x 0x65) = .ldVxMem x ∧
    (s.i.toNat + x.toNat ≤ 0xFFF → ∃ t, exec (.ldVxMem x) s = .next t ∧
      (∀ r : Nibble, r.toNat ≤ x.toNat → t.reg r = s.readByte (s.i.toNat + r.toNat)) ∧
      SameRegsBut s t (fun r => r.toNat ≤ x.toNat) ∧
      t.i.toNat = (s.i.toNat + x.toNat + 1) % 65536 ∧
      t = { s with v := t.v, i := t.i } ∧ SameBytes s t) ∧
    (0xFFF < s.i.toNat + x.toNat →
      exec (.ldVxMem x) s = .next (s.faulted .addressFault (s.pc - 2) (max s.i.toNat 0x1000)))

/-- R47, R96, R97: registers stored by a bulk store are loaded back by a bulk load at the same address, whatever the
registers held meanwhile. -/
def Obligations.BulkLoadRestoresABulkStore : Prop :=
  ∀ (x : Nibble) (s : State) (w : Vector Byte 16), s.i.toNat + x.toNat ≤ 0xFFF →
    ∃ t u, exec (.ldMemVx x) s = .next t ∧ exec (.ldVxMem x) { t with v := w, i := s.i } = .next u ∧
      (∀ r : Nibble, r.toNat ≤ x.toNat → u.reg r = s.reg r) ∧ u.i = t.i ∧ u.mem = t.mem

/-- R32, R47, R96: two registers stored where the next fetch reads are the instruction word that fetch decodes. -/
def Obligations.StoredBytesAreTheNextWord : Prop :=
  ∀ (x r r' : Nibble) (s : State), s.i.toNat + x.toNat ≤ 0xFFF → r'.toNat ≤ x.toNat → r'.toNat = r.toNat + 1 →
    ∃ t, exec (.ldMemVx x) s = .next t ∧ t.wordAt (s.i.toNat + r.toNat) = wordOfBytes (s.reg r) (s.reg r')

/-! ## Display -/

/-- R99: CLS leaves every pixel of an `H` by `W` grid at 0. -/
def Obligations.ClsClearsTheDisplay : Prop :=
  ∀ (s : State) (ignored : Nibble), decodeWord (wordXK 0x0 ignored 0xE0) = .cls ∧
    ∃ t, exec .cls s = .next t ∧ gridShape s.cfg t.display ∧ (∀ r c, t.display.pixel r c = false) ∧
      t = { s with display := t.display } ∧ SameBytes s t

/-- R100, R101, R102, R104: after a draw each pixel is its old value XOR the parity of the sprite bits that land on it,
columns and rows wrapping; only VF, as a flag, and the display change. That the old `V[x]` and `V[y]` are the coordinates, also
where one is VF, is R100 and the spec's decision D14 (log entry 17). -/
def Obligations.DrawXorsTheSpriteIntoTheDisplay : Prop :=
  ∀ (x y n : Nibble) (s : State), s.cfg.Ok → gridShape s.cfg s.display →
    (n = 0 ∨ s.i.toNat + n.toNat ≤ 0x1000) →
    decodeWord (wordXY 0xD x y n) = .drw x y n ∧
    ∃ t, exec (.drw x y n) s = .next t ∧ gridShape s.cfg t.display ∧
      (∀ r c, r < s.cfg.height → c < s.cfg.width →
        t.display.pixel r c =
          (s.display.pixel r c ^^
            decide ((s.landings (s.reg x).toNat (s.reg y).toNat n.toNat r c).length % 2 = 1))) ∧
      SameRegsBut s t (· = vf) ∧ t = { s with v := t.v, display := t.display } ∧ SameBytes s t

/-- R100, R103, R104: VF after a draw is 1 exactly when some pixel that was 1 receives a sprite bit, or some pixel receives
two, and otherwise 0. -/
def Obligations.DrawSetsTheCollisionFlag : Prop :=
  ∀ (x y n : Nibble) (s : State), s.cfg.Ok → gridShape s.cfg s.display →
    (n = 0 ∨ s.i.toNat + n.toNat ≤ 0x1000) →
    ∃ t, exec (.drw x y n) s = .next t ∧ (t.reg vf = 1 ∨ t.reg vf = 0) ∧
      (t.reg vf = 1 ↔ ∃ r c, r < s.cfg.height ∧ c < s.cfg.width ∧
        ((s.display.pixel r c = true ∧ s.landings (s.reg x).toNat (s.reg y).toNat n.toNat r c ≠ []) ∨
          2 ≤ (s.landings (s.reg x).toNat (s.reg y).toNat n.toNat r c).length))

/-- R105: drawing the same sprite at the same place twice returns the display to what it was. -/
def Obligations.DrawingTwiceRestoresTheDisplay : Prop :=
  ∀ (x y n : Nibble) (s : State), x ≠ vf → y ≠ vf → (n = 0 ∨ s.i.toNat + n.toNat ≤ 0x1000) →
    ∃ t u, exec (.drw x y n) s = .next t ∧ exec (.drw x y n) t = .next u ∧ u.display = s.display

/-- R103, C7: where no two sprite bits can land on one pixel, the second of two equal draws sets VF exactly when some sprite
bit landed on a pixel that was 0 before the first draw, which is 1 between the draws. On a display clear there, that is: when
the sprite has a 1 bit, as R105 has it (log entry 9). -/
def Obligations.SecondDrawCollidesWhereTheDisplayWasClear : Prop :=
  ∀ (x y n : Nibble) (s : State), x ≠ vf → y ≠ vf → (n = 0 ∨ s.i.toNat + n.toNat ≤ 0x1000) →
    gridShape s.cfg s.display → 8 ≤ s.cfg.width → n.toNat ≤ s.cfg.height → 1 ≤ s.cfg.height →
    ∃ t u, exec (.drw x y n) s = .next t ∧ exec (.drw x y n) t = .next u ∧
      (u.reg vf = 1 ∨ u.reg vf = 0) ∧
      (u.reg vf = 1 ↔ ∃ r c, r < n.toNat ∧ c < 8 ∧ s.spriteBit r c = true ∧
        s.display.pixel (((s.reg y).toNat + r) % s.cfg.height) (((s.reg x).toNat + c) % s.cfg.width) = false)

/-- R105's flag clause as the rule words it, for any display before the first draw: expected to FAIL, because a pixel that
was 1 before the first draw is 0 between the draws and goes from 0 to 1 in the second, which R103 calls no collision (log
entry 9). -/
def Obligations.SecondDrawCollidesWheneverTheSpriteHasABit : Prop :=
  ∀ (x y n : Nibble) (s : State), x ≠ vf → y ≠ vf → (n = 0 ∨ s.i.toNat + n.toNat ≤ 0x1000) →
    gridShape s.cfg s.display → 8 ≤ s.cfg.width → n.toNat ≤ s.cfg.height → 1 ≤ s.cfg.height →
    ∃ t u, exec (.drw x y n) s = .next t ∧ exec (.drw x y n) t = .next u ∧
      (u.reg vf = 1 ↔ ∃ r c, r < n.toNat ∧ c < 8 ∧ s.spriteBit r c = true)

/-! ## Timers and input -/

/-- R107, R108, R109: the timer instructions move a byte and count nothing down. -/
def Obligations.TimerInstructionsMoveAByte : Prop :=
  ∀ (x : Nibble) (s : State),
    decodeWord (wordXK 0xF x 0x07) = .ldVxDt x ∧ decodeWord (wordXK 0xF x 0x15) = .ldDtVx x ∧
    decodeWord (wordXK 0xF x 0x18) = .ldStVx x ∧
    (∃ t, exec (.ldVxDt x) s = .next t ∧ t.reg x = s.dt ∧ SameRegsBut s t (· = x) ∧
      t = { s with v := t.v } ∧ SameBytes s t) ∧
    (∃ t, exec (.ldDtVx x) s = .next t ∧ t.dt = s.reg x ∧ t = { s with dt := t.dt } ∧ SameBytes s t) ∧
    (∃ t, exec (.ldStVx x) s = .next t ∧ t.st = s.reg x ∧ (t.soundActive = true ↔ s.reg x ≠ 0) ∧
      t = { s with st := t.st } ∧ SameBytes s t)

/-- R110, R111: the key skips test the live latch at `V[x] AND 0xF`. -/
def Obligations.SkipsOnKeys : Prop :=
  ∀ (x : Nibble) (s : State) (k : Fin 16), k.val = (s.reg x).toNat % 16 →
    decodeWord (wordXK 0xE x 0x9E) = .skp x ∧ decodeWord (wordXK 0xE x 0xA1) = .sknp x ∧
    (∃ t, exec (.skp x) s = .next t ∧
      t.pc.toNat = (if s.keys[k] = true then (s.pc.toNat + 2) % 65536 else s.pc.toNat) ∧
      t = { s with pc := t.pc } ∧ SameBytes s t) ∧
    (∃ t, exec (.sknp x) s = .next t ∧
      t.pc.toNat = (if s.keys[k] = false then (s.pc.toNat + 2) % 65536 else s.pc.toNat) ∧
      t = { s with pc := t.pc } ∧ SameBytes s t)

/-- R112, R113: the six transitions of the key-wait: what is detected, what is written, and where `PC` goes. -/
def Obligations.KeyWaitTransitions : Prop :=
  ∀ (x : Nibble) (s : State), decodeWord (wordXK 0xF x 0x0A) = .ldVxK x ∧
    (s.kw = .idle ∨ s.kw = .awaitingPress → ∀ k, s.LowestChanged k →
      exec (.ldVxK x) s = .next { s with kw := .awaitingRelease, kdet := k, pc := s.pc - 2 }) ∧
    (s.kw = .idle ∨ s.kw = .awaitingPress → s.keys = s.snap →
      exec (.ldVxK x) s = .next { s with kw := .awaitingPress, pc := s.pc - 2 }) ∧
    (s.kw = .awaitingRelease → s.keys[s.kdet] = false → ∃ t, exec (.ldVxK x) s = .next t ∧
      (t.reg x).toNat = s.kdet.val ∧ SameRegsBut s t (· = x) ∧ t = { s with v := t.v, kw := .idle } ∧ SameBytes s t) ∧
    (s.kw = .awaitingRelease → s.keys[s.kdet] = true →
      exec (.ldVxK x) s = .next { s with pc := s.pc - 2 })

/-- R113, its corner case: a Cycle that runs the key-wait from `idle` never detects a key. -/
def Obligations.FirstKeyWaitCycleDetectsNothing : Prop :=
  ∀ (s : State) (x : Nibble), s.CycleNext → s.Safe → s.FetchOk →
    decodeWord (s.wordAt s.pc.toNat) = .ldVxK x → s.kw = .idle →
    step s = .next { s with inbox := s.inbox.tail, snap := s.keys, kw := .awaitingPress }

/-- R113, R114: with no key transition a Cycle of the key-wait leaves every element of the block as it was. -/
def Obligations.KeyWaitWithoutATransitionChangesNothing : Prop :=
  ∀ (s : State) (x : Nibble), s.CycleNext → s.Safe → s.FetchOk →
    decodeWord (s.wordAt s.pc.toNat) = .ldVxK x →
    (s.kw = .awaitingPress ∧ s.keys = s.snap) ∨ (s.kw = .awaitingRelease ∧ s.keys[s.kdet] = true) →
    step s = .next { s with inbox := s.inbox.tail }

/-- R113, source §8: with all keys up when the wait begins, a press and then a release of key `k` between Cycles gives the
destination register `k`, and sequencing resumes. -/
def Obligations.PressThenReleaseEndsTheKeyWait : Prop :=
  ∀ (s : State) (x : Nibble) (k : Fin 16), s.Safe → s.FetchOk → decodeWord (s.wordAt s.pc.toNat) = .ldVxK x →
    s.kw = .idle → (∀ j : Fin 16, s.keys[j] = false) →
    ∃ t : State,
      core.run 5 ({ s with inbox := [.cycle, .setKey k.val true, .cycle, .setKey k.val false, .cycle] } : State) = .next t ∧
      (t.reg x).toNat = k.val ∧ SameRegsBut s t (· = x) ∧ t.kw = .idle ∧ t.pc = s.pc + 2 ∧ t.keys = s.keys ∧
      t.inbox = [] ∧ SameBytes s t

/-! ## The host's transactions -/

/-- R115: a Tick takes 1 from each timer that is above 0, independently, and changes nothing else. -/
def Obligations.TickCountsBothTimersDown : Prop :=
  ∀ s : State, ∃ t, perform .tick s = .next t ∧
    t.dt.toNat = (if s.dt.toNat > 0 then s.dt.toNat - 1 else 0) ∧
    t.st.toNat = (if s.st.toNat > 0 then s.st.toNat - 1 else 0) ∧
    t = { s with dt := t.dt, st := t.st }

/-- R116: SetKey writes one key of the live latch; an index outside 0..15 is refused. -/
def Obligations.SetKeyWritesOneKeyOrIsRefused : Prop :=
  ∀ (s : State) (p : Bool),
    (∀ k : Fin 16, ∃ t, perform (.setKey k.val p) s = .next t ∧ t.keys[k] = p ∧
      (∀ j : Fin 16, j ≠ k → t.keys[j] = s.keys[j]) ∧ t = { s with keys := t.keys }) ∧
    ∀ k : Nat, 15 < k → perform (.setKey k p) s = .refused (.keyIndexOutOfRange k)

/-- R142: Load checks the image against memory first; then it writes every byte in order, and nothing but memory (and the
answer to the host) changes. -/
def Obligations.LoadCopiesTheImageOrReportsAnError : Prop :=
  ∀ (s : State) (bytes : List Byte) (base : Nat),
    (base + bytes.length ≤ 4096 → ∃ t, perform (.load bytes (some base)) s = .next t ∧
      (∀ k (h : k < bytes.length), t.readByte (base + k) = bytes[k]) ∧
      SameBytesOutside s t base bytes.length ∧ t = { s with mem := t.mem, reply := some .ok }) ∧
    (4096 < base + bytes.length →
      perform (.load bytes (some base)) s = .next { s with reply := some .loadError }) ∧
    perform (.load bytes none) s = perform (.load bytes (some s.cfg.loadAddr)) s

/-! ## Rules over all instructions -/

/-- R29, R16 to R25: which instructions may write which element of the state. `V[r]` changes only as a destination or as the
flag; `PC` only by the instructions R18 names or by fault entry (R121); the fault record only where the instruction's condition
of R117 holds; the live latch and the snapshot by no instruction. The last clauses are about the model's own fields, for which
the spec names no writer: the draw counter (log entry 1), the configuration (2), the inbox (4), the reply (5). -/
def Obligations.EachElementHasItsWriters : Prop :=
  ∀ (i : Instr) (s t : State), exec i s = .next t →
    (∀ r, t.reg r ≠ s.reg r → i.writesReg r = true) ∧
    (t.pc ≠ s.pc → i.writesPc = true ∨ s.causeOf i ≠ .none) ∧
    (t.fault ≠ s.fault ∨ t.faultPc ≠ s.faultPc ∨ t.faultAddr ≠ s.faultAddr → s.causeOf i ≠ .none) ∧
    (t.i ≠ s.i → (∃ a, i = .ldIAddr a) ∨ (∃ x, i = .addIVx x) ∨ (∃ x, i = .ldFVx x) ∨ (∃ x, i = .ldMemVx x) ∨
      ∃ x, i = .ldVxMem x) ∧
    (t.stack ≠ s.stack → ∃ a, i = .call a) ∧ (t.sp ≠ s.sp → i = .ret ∨ ∃ a, i = .call a) ∧
    (t.dt ≠ s.dt → ∃ x, i = .ldDtVx x) ∧ (t.st ≠ s.st → ∃ x, i = .ldStVx x) ∧
    (t.display ≠ s.display → i = .cls ∨ ∃ x y n, i = .drw x y n) ∧
    (t.mem ≠ s.mem → (∃ x, i = .ldBVx x) ∨ ∃ x, i = .ldMemVx x) ∧
    (t.kw ≠ s.kw ∨ t.kdet ≠ s.kdet → ∃ x, i = .ldVxK x) ∧
    t.keys = s.keys ∧ t.snap = s.snap ∧
    (t.draws ≠ s.draws → ∃ x kk, i = .rnd x kk) ∧ t.cfg = s.cfg ∧ t.inbox = s.inbox ∧ t.reply = s.reply

/-- R21: `ST` is never read by any instruction: changing it changes nothing but itself. -/
def Obligations.NoInstructionReadsTheSoundTimer : Prop :=
  ∀ (i : Instr) (s t : State) (b : Byte), exec i s = .next t →
    ∃ b', exec i { s with st := b } = .next { t with st := b' }

/-- R17, C6: a flag-producing instruction that does not name VF as an operand gives the same state whatever VF held: there
is no carry-in, and VF is overwritten. -/
def Obligations.FlagProducersNeverReadTheOldFlag : Prop :=
  ∀ (i : Instr) (ops : List Nibble) (s : State) (b : Byte), i.flagOperands = some ops → vf ∉ ops →
    s.causeOf i = .none → exec i (s.setReg vf b) = exec i s

/-- R28: an executing instruction is not affected by the host's pending requests, nor does it touch them. -/
def Obligations.PendingRequestsDoNotReachAnInstruction : Prop :=
  ∀ (i : Instr) (s t : State) (q : List Request), exec i s = .next t →
    exec i { s with inbox := q } = .next { t with inbox := q }

/-- R24, R124: only Reset clears a recorded fault; every other step leaves the record and `PC` as they are. -/
def Obligations.OnlyResetClearsAFault : Prop :=
  ∀ s t : State, s.fault ≠ .none → step s = .next t →
    (∃ rest, s.inbox = .reset :: rest ∧ t.fault = .none) ∨
    (t.fault = s.fault ∧ t.faultPc = s.faultPc ∧ t.faultAddr = s.faultAddr ∧ t.pc = s.pc)

/-- R116, R119: a step answers a next state, except for a SetKey with an index outside 0..15. -/
def Obligations.OnlyAnIllegalKeyIndexStopsAStep : Prop :=
  ∀ s : State, (∃ t, step s = .next t) ∨
    ∃ k p rest, s.inbox = .setKey k p :: rest ∧ 15 < k ∧ step s = .refused (.keyIndexOutOfRange k)

/-- R68, R135: at a jump to its own address a Cycle changes nothing but the snapshot, and the run is still at its end. -/
def Obligations.SelfJumpEndsARun : Prop :=
  ∀ s : State, s.AtHalt → s.CycleNext →
    ∃ t, step s = .next t ∧ t = { s with inbox := s.inbox.tail, snap := t.snap } ∧ t.AtHalt

/-- A word placed for the next fetch is what the next step decodes and runs, from any state. -/
def Obligations.PlacedWordRunsNext : Prop :=
  ∀ (s : State) (w : Word),
    step (s.withFetchWord 16 w.toNat) =
      exec (decodeWord w) (s.withFetchWord 16 w.toNat).snapshot.advance
end

