-- ==== Sys2Proof/Laws/Decode.lean ====
section
/-! SUPPORT. The fields of a word built in one of the formats of R51, and the bytes of a word. -/

namespace Sys2Proof

@[simp] theorem opOf_wordA (op : Nibble) (a : Addr) : opOf (wordA op a) = op := by
  unfold opOf wordA; ext i hi
  interval_cases i <;> simp [BitVec.getElem_extractLsb']

@[simp] theorem addrOf_wordA (op : Nibble) (a : Addr) : addrOf (wordA op a) = a := by
  unfold addrOf wordA; ext i hi
  interval_cases i <;> simp [BitVec.getElem_extractLsb']

@[simp] theorem opOf_wordXK (op x : Nibble) (kk : Byte) : opOf (wordXK op x kk) = op := by
  unfold opOf wordXK; ext i hi
  interval_cases i <;> simp [BitVec.getElem_extractLsb']

@[simp] theorem xOf_wordXK (op x : Nibble) (kk : Byte) : xOf (wordXK op x kk) = x := by
  unfold xOf wordXK; ext i hi
  interval_cases i <;> simp [BitVec.getElem_extractLsb']

@[simp] theorem kkOf_wordXK (op x : Nibble) (kk : Byte) : kkOf (wordXK op x kk) = kk := by
  unfold kkOf wordXK; ext i hi
  interval_cases i <;> simp [BitVec.getElem_extractLsb']

@[simp] theorem opOf_wordXY (op x y n : Nibble) : opOf (wordXY op x y n) = op := by
  unfold opOf wordXY; ext i hi
  interval_cases i <;> simp [BitVec.getElem_extractLsb']

@[simp] theorem xOf_wordXY (op x y n : Nibble) : xOf (wordXY op x y n) = x := by
  unfold xOf wordXY; ext i hi
  interval_cases i <;> simp [BitVec.getElem_extractLsb']

@[simp] theorem yOf_wordXY (op x y n : Nibble) : yOf (wordXY op x y n) = y := by
  unfold yOf wordXY; ext i hi
  interval_cases i <;> simp [BitVec.getElem_extractLsb']

@[simp] theorem nOf_wordXY (op x y n : Nibble) : nOf (wordXY op x y n) = n := by
  unfold nOf wordXY; ext i hi
  interval_cases i <;> simp [BitVec.getElem_extractLsb']

/-- The bytes of a word put together again are the word (R32). -/
@[simp] theorem wordOfBytes_bytesOfWord (w : Word) :
    wordOfBytes (w.extractLsb' 8 8) (w.extractLsb' 0 8) = w := by
  unfold wordOfBytes; ext i hi
  have : i < 16 := hi
  interval_cases i <;> simp [BitVec.getElem_extractLsb']

end Sys2Proof
end

