-- ==== Sys2Proof/Laws/State.lean ====
section
/-! SUPPORT. One lemma per field per update of the state, and what the two observers `reg` and `readByte` see of it, so that
no proof unfolds a record update. -/

namespace Sys2Proof.Machine

/-! ### State.setReg -/

@[simp] theorem State.setReg_v (s : State) (x : Nibble) (b : Byte) : (s.setReg x b).v = s.v.set x.toNat b x.isLt := rfl
@[simp] theorem State.setReg_i (s : State) (x : Nibble) (b : Byte) : (s.setReg x b).i = s.i := rfl
@[simp] theorem State.setReg_pc (s : State) (x : Nibble) (b : Byte) : (s.setReg x b).pc = s.pc := rfl
@[simp] theorem State.setReg_stack (s : State) (x : Nibble) (b : Byte) : (s.setReg x b).stack = s.stack := rfl
@[simp] theorem State.setReg_sp (s : State) (x : Nibble) (b : Byte) : (s.setReg x b).sp = s.sp := rfl
@[simp] theorem State.setReg_dt (s : State) (x : Nibble) (b : Byte) : (s.setReg x b).dt = s.dt := rfl
@[simp] theorem State.setReg_st (s : State) (x : Nibble) (b : Byte) : (s.setReg x b).st = s.st := rfl
@[simp] theorem State.setReg_display (s : State) (x : Nibble) (b : Byte) : (s.setReg x b).display = s.display := rfl
@[simp] theorem State.setReg_mem (s : State) (x : Nibble) (b : Byte) : (s.setReg x b).mem = s.mem := rfl
@[simp] theorem State.setReg_keys (s : State) (x : Nibble) (b : Byte) : (s.setReg x b).keys = s.keys := rfl
@[simp] theorem State.setReg_snap (s : State) (x : Nibble) (b : Byte) : (s.setReg x b).snap = s.snap := rfl
@[simp] theorem State.setReg_kw (s : State) (x : Nibble) (b : Byte) : (s.setReg x b).kw = s.kw := rfl
@[simp] theorem State.setReg_kdet (s : State) (x : Nibble) (b : Byte) : (s.setReg x b).kdet = s.kdet := rfl
@[simp] theorem State.setReg_fault (s : State) (x : Nibble) (b : Byte) : (s.setReg x b).fault = s.fault := rfl
@[simp] theorem State.setReg_faultPc (s : State) (x : Nibble) (b : Byte) : (s.setReg x b).faultPc = s.faultPc := rfl
@[simp] theorem State.setReg_faultAddr (s : State) (x : Nibble) (b : Byte) : (s.setReg x b).faultAddr = s.faultAddr := rfl
@[simp] theorem State.setReg_cfg (s : State) (x : Nibble) (b : Byte) : (s.setReg x b).cfg = s.cfg := rfl
@[simp] theorem State.setReg_draws (s : State) (x : Nibble) (b : Byte) : (s.setReg x b).draws = s.draws := rfl
@[simp] theorem State.setReg_inbox (s : State) (x : Nibble) (b : Byte) : (s.setReg x b).inbox = s.inbox := rfl
@[simp] theorem State.setReg_reply (s : State) (x : Nibble) (b : Byte) : (s.setReg x b).reply = s.reply := rfl
@[simp] theorem State.setReg_readByte (s : State) (x : Nibble) (b : Byte) (m : Nat) : (s.setReg x b).readByte m = s.readByte m := rfl

/-! ### State.setRegs -/

@[simp] theorem State.setRegs_v (s : State) (w : Vector Byte 16) : (s.setRegs w).v = w := rfl
@[simp] theorem State.setRegs_i (s : State) (w : Vector Byte 16) : (s.setRegs w).i = s.i := rfl
@[simp] theorem State.setRegs_pc (s : State) (w : Vector Byte 16) : (s.setRegs w).pc = s.pc := rfl
@[simp] theorem State.setRegs_stack (s : State) (w : Vector Byte 16) : (s.setRegs w).stack = s.stack := rfl
@[simp] theorem State.setRegs_sp (s : State) (w : Vector Byte 16) : (s.setRegs w).sp = s.sp := rfl
@[simp] theorem State.setRegs_dt (s : State) (w : Vector Byte 16) : (s.setRegs w).dt = s.dt := rfl
@[simp] theorem State.setRegs_st (s : State) (w : Vector Byte 16) : (s.setRegs w).st = s.st := rfl
@[simp] theorem State.setRegs_display (s : State) (w : Vector Byte 16) : (s.setRegs w).display = s.display := rfl
@[simp] theorem State.setRegs_mem (s : State) (w : Vector Byte 16) : (s.setRegs w).mem = s.mem := rfl
@[simp] theorem State.setRegs_keys (s : State) (w : Vector Byte 16) : (s.setRegs w).keys = s.keys := rfl
@[simp] theorem State.setRegs_snap (s : State) (w : Vector Byte 16) : (s.setRegs w).snap = s.snap := rfl
@[simp] theorem State.setRegs_kw (s : State) (w : Vector Byte 16) : (s.setRegs w).kw = s.kw := rfl
@[simp] theorem State.setRegs_kdet (s : State) (w : Vector Byte 16) : (s.setRegs w).kdet = s.kdet := rfl
@[simp] theorem State.setRegs_fault (s : State) (w : Vector Byte 16) : (s.setRegs w).fault = s.fault := rfl
@[simp] theorem State.setRegs_faultPc (s : State) (w : Vector Byte 16) : (s.setRegs w).faultPc = s.faultPc := rfl
@[simp] theorem State.setRegs_faultAddr (s : State) (w : Vector Byte 16) : (s.setRegs w).faultAddr = s.faultAddr := rfl
@[simp] theorem State.setRegs_cfg (s : State) (w : Vector Byte 16) : (s.setRegs w).cfg = s.cfg := rfl
@[simp] theorem State.setRegs_draws (s : State) (w : Vector Byte 16) : (s.setRegs w).draws = s.draws := rfl
@[simp] theorem State.setRegs_inbox (s : State) (w : Vector Byte 16) : (s.setRegs w).inbox = s.inbox := rfl
@[simp] theorem State.setRegs_reply (s : State) (w : Vector Byte 16) : (s.setRegs w).reply = s.reply := rfl
@[simp] theorem State.setRegs_readByte (s : State) (w : Vector Byte 16) (m : Nat) : (s.setRegs w).readByte m = s.readByte m := rfl

/-! ### State.setI -/

@[simp] theorem State.setI_v (s : State) (w : Word) : (s.setI w).v = s.v := rfl
@[simp] theorem State.setI_i (s : State) (w : Word) : (s.setI w).i = w := rfl
@[simp] theorem State.setI_pc (s : State) (w : Word) : (s.setI w).pc = s.pc := rfl
@[simp] theorem State.setI_stack (s : State) (w : Word) : (s.setI w).stack = s.stack := rfl
@[simp] theorem State.setI_sp (s : State) (w : Word) : (s.setI w).sp = s.sp := rfl
@[simp] theorem State.setI_dt (s : State) (w : Word) : (s.setI w).dt = s.dt := rfl
@[simp] theorem State.setI_st (s : State) (w : Word) : (s.setI w).st = s.st := rfl
@[simp] theorem State.setI_display (s : State) (w : Word) : (s.setI w).display = s.display := rfl
@[simp] theorem State.setI_mem (s : State) (w : Word) : (s.setI w).mem = s.mem := rfl
@[simp] theorem State.setI_keys (s : State) (w : Word) : (s.setI w).keys = s.keys := rfl
@[simp] theorem State.setI_snap (s : State) (w : Word) : (s.setI w).snap = s.snap := rfl
@[simp] theorem State.setI_kw (s : State) (w : Word) : (s.setI w).kw = s.kw := rfl
@[simp] theorem State.setI_kdet (s : State) (w : Word) : (s.setI w).kdet = s.kdet := rfl
@[simp] theorem State.setI_fault (s : State) (w : Word) : (s.setI w).fault = s.fault := rfl
@[simp] theorem State.setI_faultPc (s : State) (w : Word) : (s.setI w).faultPc = s.faultPc := rfl
@[simp] theorem State.setI_faultAddr (s : State) (w : Word) : (s.setI w).faultAddr = s.faultAddr := rfl
@[simp] theorem State.setI_cfg (s : State) (w : Word) : (s.setI w).cfg = s.cfg := rfl
@[simp] theorem State.setI_draws (s : State) (w : Word) : (s.setI w).draws = s.draws := rfl
@[simp] theorem State.setI_inbox (s : State) (w : Word) : (s.setI w).inbox = s.inbox := rfl
@[simp] theorem State.setI_reply (s : State) (w : Word) : (s.setI w).reply = s.reply := rfl
@[simp] theorem State.setI_reg (s : State) (w : Word) (r : Nibble) : (s.setI w).reg r = s.reg r := rfl
@[simp] theorem State.setI_readByte (s : State) (w : Word) (m : Nat) : (s.setI w).readByte m = s.readByte m := rfl

/-! ### State.setDt -/

@[simp] theorem State.setDt_v (s : State) (b : Byte) : (s.setDt b).v = s.v := rfl
@[simp] theorem State.setDt_i (s : State) (b : Byte) : (s.setDt b).i = s.i := rfl
@[simp] theorem State.setDt_pc (s : State) (b : Byte) : (s.setDt b).pc = s.pc := rfl
@[simp] theorem State.setDt_stack (s : State) (b : Byte) : (s.setDt b).stack = s.stack := rfl
@[simp] theorem State.setDt_sp (s : State) (b : Byte) : (s.setDt b).sp = s.sp := rfl
@[simp] theorem State.setDt_dt (s : State) (b : Byte) : (s.setDt b).dt = b := rfl
@[simp] theorem State.setDt_st (s : State) (b : Byte) : (s.setDt b).st = s.st := rfl
@[simp] theorem State.setDt_display (s : State) (b : Byte) : (s.setDt b).display = s.display := rfl
@[simp] theorem State.setDt_mem (s : State) (b : Byte) : (s.setDt b).mem = s.mem := rfl
@[simp] theorem State.setDt_keys (s : State) (b : Byte) : (s.setDt b).keys = s.keys := rfl
@[simp] theorem State.setDt_snap (s : State) (b : Byte) : (s.setDt b).snap = s.snap := rfl
@[simp] theorem State.setDt_kw (s : State) (b : Byte) : (s.setDt b).kw = s.kw := rfl
@[simp] theorem State.setDt_kdet (s : State) (b : Byte) : (s.setDt b).kdet = s.kdet := rfl
@[simp] theorem State.setDt_fault (s : State) (b : Byte) : (s.setDt b).fault = s.fault := rfl
@[simp] theorem State.setDt_faultPc (s : State) (b : Byte) : (s.setDt b).faultPc = s.faultPc := rfl
@[simp] theorem State.setDt_faultAddr (s : State) (b : Byte) : (s.setDt b).faultAddr = s.faultAddr := rfl
@[simp] theorem State.setDt_cfg (s : State) (b : Byte) : (s.setDt b).cfg = s.cfg := rfl
@[simp] theorem State.setDt_draws (s : State) (b : Byte) : (s.setDt b).draws = s.draws := rfl
@[simp] theorem State.setDt_inbox (s : State) (b : Byte) : (s.setDt b).inbox = s.inbox := rfl
@[simp] theorem State.setDt_reply (s : State) (b : Byte) : (s.setDt b).reply = s.reply := rfl
@[simp] theorem State.setDt_reg (s : State) (b : Byte) (r : Nibble) : (s.setDt b).reg r = s.reg r := rfl
@[simp] theorem State.setDt_readByte (s : State) (b : Byte) (m : Nat) : (s.setDt b).readByte m = s.readByte m := rfl

/-! ### State.setSt -/

@[simp] theorem State.setSt_v (s : State) (b : Byte) : (s.setSt b).v = s.v := rfl
@[simp] theorem State.setSt_i (s : State) (b : Byte) : (s.setSt b).i = s.i := rfl
@[simp] theorem State.setSt_pc (s : State) (b : Byte) : (s.setSt b).pc = s.pc := rfl
@[simp] theorem State.setSt_stack (s : State) (b : Byte) : (s.setSt b).stack = s.stack := rfl
@[simp] theorem State.setSt_sp (s : State) (b : Byte) : (s.setSt b).sp = s.sp := rfl
@[simp] theorem State.setSt_dt (s : State) (b : Byte) : (s.setSt b).dt = s.dt := rfl
@[simp] theorem State.setSt_st (s : State) (b : Byte) : (s.setSt b).st = b := rfl
@[simp] theorem State.setSt_display (s : State) (b : Byte) : (s.setSt b).display = s.display := rfl
@[simp] theorem State.setSt_mem (s : State) (b : Byte) : (s.setSt b).mem = s.mem := rfl
@[simp] theorem State.setSt_keys (s : State) (b : Byte) : (s.setSt b).keys = s.keys := rfl
@[simp] theorem State.setSt_snap (s : State) (b : Byte) : (s.setSt b).snap = s.snap := rfl
@[simp] theorem State.setSt_kw (s : State) (b : Byte) : (s.setSt b).kw = s.kw := rfl
@[simp] theorem State.setSt_kdet (s : State) (b : Byte) : (s.setSt b).kdet = s.kdet := rfl
@[simp] theorem State.setSt_fault (s : State) (b : Byte) : (s.setSt b).fault = s.fault := rfl
@[simp] theorem State.setSt_faultPc (s : State) (b : Byte) : (s.setSt b).faultPc = s.faultPc := rfl
@[simp] theorem State.setSt_faultAddr (s : State) (b : Byte) : (s.setSt b).faultAddr = s.faultAddr := rfl
@[simp] theorem State.setSt_cfg (s : State) (b : Byte) : (s.setSt b).cfg = s.cfg := rfl
@[simp] theorem State.setSt_draws (s : State) (b : Byte) : (s.setSt b).draws = s.draws := rfl
@[simp] theorem State.setSt_inbox (s : State) (b : Byte) : (s.setSt b).inbox = s.inbox := rfl
@[simp] theorem State.setSt_reply (s : State) (b : Byte) : (s.setSt b).reply = s.reply := rfl
@[simp] theorem State.setSt_reg (s : State) (b : Byte) (r : Nibble) : (s.setSt b).reg r = s.reg r := rfl
@[simp] theorem State.setSt_readByte (s : State) (b : Byte) (m : Nat) : (s.setSt b).readByte m = s.readByte m := rfl

/-! ### State.setPc -/

@[simp] theorem State.setPc_v (s : State) (w : Word) : (s.setPc w).v = s.v := rfl
@[simp] theorem State.setPc_i (s : State) (w : Word) : (s.setPc w).i = s.i := rfl
@[simp] theorem State.setPc_pc (s : State) (w : Word) : (s.setPc w).pc = w := rfl
@[simp] theorem State.setPc_stack (s : State) (w : Word) : (s.setPc w).stack = s.stack := rfl
@[simp] theorem State.setPc_sp (s : State) (w : Word) : (s.setPc w).sp = s.sp := rfl
@[simp] theorem State.setPc_dt (s : State) (w : Word) : (s.setPc w).dt = s.dt := rfl
@[simp] theorem State.setPc_st (s : State) (w : Word) : (s.setPc w).st = s.st := rfl
@[simp] theorem State.setPc_display (s : State) (w : Word) : (s.setPc w).display = s.display := rfl
@[simp] theorem State.setPc_mem (s : State) (w : Word) : (s.setPc w).mem = s.mem := rfl
@[simp] theorem State.setPc_keys (s : State) (w : Word) : (s.setPc w).keys = s.keys := rfl
@[simp] theorem State.setPc_snap (s : State) (w : Word) : (s.setPc w).snap = s.snap := rfl
@[simp] theorem State.setPc_kw (s : State) (w : Word) : (s.setPc w).kw = s.kw := rfl
@[simp] theorem State.setPc_kdet (s : State) (w : Word) : (s.setPc w).kdet = s.kdet := rfl
@[simp] theorem State.setPc_fault (s : State) (w : Word) : (s.setPc w).fault = s.fault := rfl
@[simp] theorem State.setPc_faultPc (s : State) (w : Word) : (s.setPc w).faultPc = s.faultPc := rfl
@[simp] theorem State.setPc_faultAddr (s : State) (w : Word) : (s.setPc w).faultAddr = s.faultAddr := rfl
@[simp] theorem State.setPc_cfg (s : State) (w : Word) : (s.setPc w).cfg = s.cfg := rfl
@[simp] theorem State.setPc_draws (s : State) (w : Word) : (s.setPc w).draws = s.draws := rfl
@[simp] theorem State.setPc_inbox (s : State) (w : Word) : (s.setPc w).inbox = s.inbox := rfl
@[simp] theorem State.setPc_reply (s : State) (w : Word) : (s.setPc w).reply = s.reply := rfl
@[simp] theorem State.setPc_reg (s : State) (w : Word) (r : Nibble) : (s.setPc w).reg r = s.reg r := rfl
@[simp] theorem State.setPc_readByte (s : State) (w : Word) (m : Nat) : (s.setPc w).readByte m = s.readByte m := rfl

/-! ### State.writeByte -/

@[simp] theorem State.writeByte_v (s : State) (a : Nat) (b : Byte) : (s.writeByte a b).v = s.v := rfl
@[simp] theorem State.writeByte_i (s : State) (a : Nat) (b : Byte) : (s.writeByte a b).i = s.i := rfl
@[simp] theorem State.writeByte_pc (s : State) (a : Nat) (b : Byte) : (s.writeByte a b).pc = s.pc := rfl
@[simp] theorem State.writeByte_stack (s : State) (a : Nat) (b : Byte) : (s.writeByte a b).stack = s.stack := rfl
@[simp] theorem State.writeByte_sp (s : State) (a : Nat) (b : Byte) : (s.writeByte a b).sp = s.sp := rfl
@[simp] theorem State.writeByte_dt (s : State) (a : Nat) (b : Byte) : (s.writeByte a b).dt = s.dt := rfl
@[simp] theorem State.writeByte_st (s : State) (a : Nat) (b : Byte) : (s.writeByte a b).st = s.st := rfl
@[simp] theorem State.writeByte_display (s : State) (a : Nat) (b : Byte) : (s.writeByte a b).display = s.display := rfl
@[simp] theorem State.writeByte_mem (s : State) (a : Nat) (b : Byte) : (s.writeByte a b).mem = Memory.write s.cfg s.mem a b := rfl
@[simp] theorem State.writeByte_keys (s : State) (a : Nat) (b : Byte) : (s.writeByte a b).keys = s.keys := rfl
@[simp] theorem State.writeByte_snap (s : State) (a : Nat) (b : Byte) : (s.writeByte a b).snap = s.snap := rfl
@[simp] theorem State.writeByte_kw (s : State) (a : Nat) (b : Byte) : (s.writeByte a b).kw = s.kw := rfl
@[simp] theorem State.writeByte_kdet (s : State) (a : Nat) (b : Byte) : (s.writeByte a b).kdet = s.kdet := rfl
@[simp] theorem State.writeByte_fault (s : State) (a : Nat) (b : Byte) : (s.writeByte a b).fault = s.fault := rfl
@[simp] theorem State.writeByte_faultPc (s : State) (a : Nat) (b : Byte) : (s.writeByte a b).faultPc = s.faultPc := rfl
@[simp] theorem State.writeByte_faultAddr (s : State) (a : Nat) (b : Byte) : (s.writeByte a b).faultAddr = s.faultAddr := rfl
@[simp] theorem State.writeByte_cfg (s : State) (a : Nat) (b : Byte) : (s.writeByte a b).cfg = s.cfg := rfl
@[simp] theorem State.writeByte_draws (s : State) (a : Nat) (b : Byte) : (s.writeByte a b).draws = s.draws := rfl
@[simp] theorem State.writeByte_inbox (s : State) (a : Nat) (b : Byte) : (s.writeByte a b).inbox = s.inbox := rfl
@[simp] theorem State.writeByte_reply (s : State) (a : Nat) (b : Byte) : (s.writeByte a b).reply = s.reply := rfl
@[simp] theorem State.writeByte_reg (s : State) (a : Nat) (b : Byte) (r : Nibble) : (s.writeByte a b).reg r = s.reg r := rfl

/-! ### State.enterFault -/

@[simp] theorem State.enterFault_v (s : State) (c : FaultCause) (p : Word) (a : Nat) : (s.enterFault c p a).v = s.v := rfl
@[simp] theorem State.enterFault_i (s : State) (c : FaultCause) (p : Word) (a : Nat) : (s.enterFault c p a).i = s.i := rfl
@[simp] theorem State.enterFault_pc (s : State) (c : FaultCause) (p : Word) (a : Nat) : (s.enterFault c p a).pc = p := rfl
@[simp] theorem State.enterFault_stack (s : State) (c : FaultCause) (p : Word) (a : Nat) : (s.enterFault c p a).stack = s.stack := rfl
@[simp] theorem State.enterFault_sp (s : State) (c : FaultCause) (p : Word) (a : Nat) : (s.enterFault c p a).sp = s.sp := rfl
@[simp] theorem State.enterFault_dt (s : State) (c : FaultCause) (p : Word) (a : Nat) : (s.enterFault c p a).dt = s.dt := rfl
@[simp] theorem State.enterFault_st (s : State) (c : FaultCause) (p : Word) (a : Nat) : (s.enterFault c p a).st = s.st := rfl
@[simp] theorem State.enterFault_display (s : State) (c : FaultCause) (p : Word) (a : Nat) : (s.enterFault c p a).display = s.display := rfl
@[simp] theorem State.enterFault_mem (s : State) (c : FaultCause) (p : Word) (a : Nat) : (s.enterFault c p a).mem = s.mem := rfl
@[simp] theorem State.enterFault_keys (s : State) (c : FaultCause) (p : Word) (a : Nat) : (s.enterFault c p a).keys = s.keys := rfl
@[simp] theorem State.enterFault_snap (s : State) (c : FaultCause) (p : Word) (a : Nat) : (s.enterFault c p a).snap = s.snap := rfl
@[simp] theorem State.enterFault_kw (s : State) (c : FaultCause) (p : Word) (a : Nat) : (s.enterFault c p a).kw = s.kw := rfl
@[simp] theorem State.enterFault_kdet (s : State) (c : FaultCause) (p : Word) (a : Nat) : (s.enterFault c p a).kdet = s.kdet := rfl
@[simp] theorem State.enterFault_fault (s : State) (c : FaultCause) (p : Word) (a : Nat) : (s.enterFault c p a).fault = c := rfl
@[simp] theorem State.enterFault_faultPc (s : State) (c : FaultCause) (p : Word) (a : Nat) : (s.enterFault c p a).faultPc = p := rfl
@[simp] theorem State.enterFault_faultAddr (s : State) (c : FaultCause) (p : Word) (a : Nat) : (s.enterFault c p a).faultAddr = if c = .addressFault then a else 0 := rfl
@[simp] theorem State.enterFault_cfg (s : State) (c : FaultCause) (p : Word) (a : Nat) : (s.enterFault c p a).cfg = s.cfg := rfl
@[simp] theorem State.enterFault_draws (s : State) (c : FaultCause) (p : Word) (a : Nat) : (s.enterFault c p a).draws = s.draws := rfl
@[simp] theorem State.enterFault_inbox (s : State) (c : FaultCause) (p : Word) (a : Nat) : (s.enterFault c p a).inbox = s.inbox := rfl
@[simp] theorem State.enterFault_reply (s : State) (c : FaultCause) (p : Word) (a : Nat) : (s.enterFault c p a).reply = s.reply := rfl
@[simp] theorem State.enterFault_reg (s : State) (c : FaultCause) (p : Word) (a : Nat) (r : Nibble) : (s.enterFault c p a).reg r = s.reg r := rfl
@[simp] theorem State.enterFault_readByte (s : State) (c : FaultCause) (p : Word) (a : Nat) (m : Nat) : (s.enterFault c p a).readByte m = s.readByte m := rfl

/-! ### State.countDraw -/

@[simp] theorem State.countDraw_v (s : State) : s.countDraw.v = s.v := rfl
@[simp] theorem State.countDraw_i (s : State) : s.countDraw.i = s.i := rfl
@[simp] theorem State.countDraw_pc (s : State) : s.countDraw.pc = s.pc := rfl
@[simp] theorem State.countDraw_stack (s : State) : s.countDraw.stack = s.stack := rfl
@[simp] theorem State.countDraw_sp (s : State) : s.countDraw.sp = s.sp := rfl
@[simp] theorem State.countDraw_dt (s : State) : s.countDraw.dt = s.dt := rfl
@[simp] theorem State.countDraw_st (s : State) : s.countDraw.st = s.st := rfl
@[simp] theorem State.countDraw_display (s : State) : s.countDraw.display = s.display := rfl
@[simp] theorem State.countDraw_mem (s : State) : s.countDraw.mem = s.mem := rfl
@[simp] theorem State.countDraw_keys (s : State) : s.countDraw.keys = s.keys := rfl
@[simp] theorem State.countDraw_snap (s : State) : s.countDraw.snap = s.snap := rfl
@[simp] theorem State.countDraw_kw (s : State) : s.countDraw.kw = s.kw := rfl
@[simp] theorem State.countDraw_kdet (s : State) : s.countDraw.kdet = s.kdet := rfl
@[simp] theorem State.countDraw_fault (s : State) : s.countDraw.fault = s.fault := rfl
@[simp] theorem State.countDraw_faultPc (s : State) : s.countDraw.faultPc = s.faultPc := rfl
@[simp] theorem State.countDraw_faultAddr (s : State) : s.countDraw.faultAddr = s.faultAddr := rfl
@[simp] theorem State.countDraw_cfg (s : State) : s.countDraw.cfg = s.cfg := rfl
@[simp] theorem State.countDraw_draws (s : State) : s.countDraw.draws = s.draws + 1 := rfl
@[simp] theorem State.countDraw_inbox (s : State) : s.countDraw.inbox = s.inbox := rfl
@[simp] theorem State.countDraw_reply (s : State) : s.countDraw.reply = s.reply := rfl
@[simp] theorem State.countDraw_reg (s : State) (r : Nibble) : s.countDraw.reg r = s.reg r := rfl
@[simp] theorem State.countDraw_readByte (s : State) (m : Nat) : s.countDraw.readByte m = s.readByte m := rfl

/-! ### State.setDisplay -/

@[simp] theorem State.setDisplay_v (s : State) (d : Grid) : (s.setDisplay d).v = s.v := rfl
@[simp] theorem State.setDisplay_i (s : State) (d : Grid) : (s.setDisplay d).i = s.i := rfl
@[simp] theorem State.setDisplay_pc (s : State) (d : Grid) : (s.setDisplay d).pc = s.pc := rfl
@[simp] theorem State.setDisplay_stack (s : State) (d : Grid) : (s.setDisplay d).stack = s.stack := rfl
@[simp] theorem State.setDisplay_sp (s : State) (d : Grid) : (s.setDisplay d).sp = s.sp := rfl
@[simp] theorem State.setDisplay_dt (s : State) (d : Grid) : (s.setDisplay d).dt = s.dt := rfl
@[simp] theorem State.setDisplay_st (s : State) (d : Grid) : (s.setDisplay d).st = s.st := rfl
@[simp] theorem State.setDisplay_display (s : State) (d : Grid) : (s.setDisplay d).display = d := rfl
@[simp] theorem State.setDisplay_mem (s : State) (d : Grid) : (s.setDisplay d).mem = s.mem := rfl
@[simp] theorem State.setDisplay_keys (s : State) (d : Grid) : (s.setDisplay d).keys = s.keys := rfl
@[simp] theorem State.setDisplay_snap (s : State) (d : Grid) : (s.setDisplay d).snap = s.snap := rfl
@[simp] theorem State.setDisplay_kw (s : State) (d : Grid) : (s.setDisplay d).kw = s.kw := rfl
@[simp] theorem State.setDisplay_kdet (s : State) (d : Grid) : (s.setDisplay d).kdet = s.kdet := rfl
@[simp] theorem State.setDisplay_fault (s : State) (d : Grid) : (s.setDisplay d).fault = s.fault := rfl
@[simp] theorem State.setDisplay_faultPc (s : State) (d : Grid) : (s.setDisplay d).faultPc = s.faultPc := rfl
@[simp] theorem State.setDisplay_faultAddr (s : State) (d : Grid) : (s.setDisplay d).faultAddr = s.faultAddr := rfl
@[simp] theorem State.setDisplay_cfg (s : State) (d : Grid) : (s.setDisplay d).cfg = s.cfg := rfl
@[simp] theorem State.setDisplay_draws (s : State) (d : Grid) : (s.setDisplay d).draws = s.draws := rfl
@[simp] theorem State.setDisplay_inbox (s : State) (d : Grid) : (s.setDisplay d).inbox = s.inbox := rfl
@[simp] theorem State.setDisplay_reply (s : State) (d : Grid) : (s.setDisplay d).reply = s.reply := rfl
@[simp] theorem State.setDisplay_reg (s : State) (d : Grid) (r : Nibble) : (s.setDisplay d).reg r = s.reg r := rfl
@[simp] theorem State.setDisplay_readByte (s : State) (d : Grid) (m : Nat) : (s.setDisplay d).readByte m = s.readByte m := rfl

/-! ### State.setKw -/

@[simp] theorem State.setKw_v (s : State) (k : KeyWait) : (s.setKw k).v = s.v := rfl
@[simp] theorem State.setKw_i (s : State) (k : KeyWait) : (s.setKw k).i = s.i := rfl
@[simp] theorem State.setKw_pc (s : State) (k : KeyWait) : (s.setKw k).pc = s.pc := rfl
@[simp] theorem State.setKw_stack (s : State) (k : KeyWait) : (s.setKw k).stack = s.stack := rfl
@[simp] theorem State.setKw_sp (s : State) (k : KeyWait) : (s.setKw k).sp = s.sp := rfl
@[simp] theorem State.setKw_dt (s : State) (k : KeyWait) : (s.setKw k).dt = s.dt := rfl
@[simp] theorem State.setKw_st (s : State) (k : KeyWait) : (s.setKw k).st = s.st := rfl
@[simp] theorem State.setKw_display (s : State) (k : KeyWait) : (s.setKw k).display = s.display := rfl
@[simp] theorem State.setKw_mem (s : State) (k : KeyWait) : (s.setKw k).mem = s.mem := rfl
@[simp] theorem State.setKw_keys (s : State) (k : KeyWait) : (s.setKw k).keys = s.keys := rfl
@[simp] theorem State.setKw_snap (s : State) (k : KeyWait) : (s.setKw k).snap = s.snap := rfl
@[simp] theorem State.setKw_kw (s : State) (k : KeyWait) : (s.setKw k).kw = k := rfl
@[simp] theorem State.setKw_kdet (s : State) (k : KeyWait) : (s.setKw k).kdet = s.kdet := rfl
@[simp] theorem State.setKw_fault (s : State) (k : KeyWait) : (s.setKw k).fault = s.fault := rfl
@[simp] theorem State.setKw_faultPc (s : State) (k : KeyWait) : (s.setKw k).faultPc = s.faultPc := rfl
@[simp] theorem State.setKw_faultAddr (s : State) (k : KeyWait) : (s.setKw k).faultAddr = s.faultAddr := rfl
@[simp] theorem State.setKw_cfg (s : State) (k : KeyWait) : (s.setKw k).cfg = s.cfg := rfl
@[simp] theorem State.setKw_draws (s : State) (k : KeyWait) : (s.setKw k).draws = s.draws := rfl
@[simp] theorem State.setKw_inbox (s : State) (k : KeyWait) : (s.setKw k).inbox = s.inbox := rfl
@[simp] theorem State.setKw_reply (s : State) (k : KeyWait) : (s.setKw k).reply = s.reply := rfl
@[simp] theorem State.setKw_reg (s : State) (k : KeyWait) (r : Nibble) : (s.setKw k).reg r = s.reg r := rfl
@[simp] theorem State.setKw_readByte (s : State) (k : KeyWait) (m : Nat) : (s.setKw k).readByte m = s.readByte m := rfl

/-! ### State.setKdet -/

@[simp] theorem State.setKdet_v (s : State) (k : Fin 16) : (s.setKdet k).v = s.v := rfl
@[simp] theorem State.setKdet_i (s : State) (k : Fin 16) : (s.setKdet k).i = s.i := rfl
@[simp] theorem State.setKdet_pc (s : State) (k : Fin 16) : (s.setKdet k).pc = s.pc := rfl
@[simp] theorem State.setKdet_stack (s : State) (k : Fin 16) : (s.setKdet k).stack = s.stack := rfl
@[simp] theorem State.setKdet_sp (s : State) (k : Fin 16) : (s.setKdet k).sp = s.sp := rfl
@[simp] theorem State.setKdet_dt (s : State) (k : Fin 16) : (s.setKdet k).dt = s.dt := rfl
@[simp] theorem State.setKdet_st (s : State) (k : Fin 16) : (s.setKdet k).st = s.st := rfl
@[simp] theorem State.setKdet_display (s : State) (k : Fin 16) : (s.setKdet k).display = s.display := rfl
@[simp] theorem State.setKdet_mem (s : State) (k : Fin 16) : (s.setKdet k).mem = s.mem := rfl
@[simp] theorem State.setKdet_keys (s : State) (k : Fin 16) : (s.setKdet k).keys = s.keys := rfl
@[simp] theorem State.setKdet_snap (s : State) (k : Fin 16) : (s.setKdet k).snap = s.snap := rfl
@[simp] theorem State.setKdet_kw (s : State) (k : Fin 16) : (s.setKdet k).kw = s.kw := rfl
@[simp] theorem State.setKdet_kdet (s : State) (k : Fin 16) : (s.setKdet k).kdet = k := rfl
@[simp] theorem State.setKdet_fault (s : State) (k : Fin 16) : (s.setKdet k).fault = s.fault := rfl
@[simp] theorem State.setKdet_faultPc (s : State) (k : Fin 16) : (s.setKdet k).faultPc = s.faultPc := rfl
@[simp] theorem State.setKdet_faultAddr (s : State) (k : Fin 16) : (s.setKdet k).faultAddr = s.faultAddr := rfl
@[simp] theorem State.setKdet_cfg (s : State) (k : Fin 16) : (s.setKdet k).cfg = s.cfg := rfl
@[simp] theorem State.setKdet_draws (s : State) (k : Fin 16) : (s.setKdet k).draws = s.draws := rfl
@[simp] theorem State.setKdet_inbox (s : State) (k : Fin 16) : (s.setKdet k).inbox = s.inbox := rfl
@[simp] theorem State.setKdet_reply (s : State) (k : Fin 16) : (s.setKdet k).reply = s.reply := rfl
@[simp] theorem State.setKdet_reg (s : State) (k : Fin 16) (r : Nibble) : (s.setKdet k).reg r = s.reg r := rfl
@[simp] theorem State.setKdet_readByte (s : State) (k : Fin 16) (m : Nat) : (s.setKdet k).readByte m = s.readByte m := rfl

/-! ### State.tick -/

@[simp] theorem State.tick_v (s : State) : s.tick.v = s.v := rfl
@[simp] theorem State.tick_i (s : State) : s.tick.i = s.i := rfl
@[simp] theorem State.tick_pc (s : State) : s.tick.pc = s.pc := rfl
@[simp] theorem State.tick_stack (s : State) : s.tick.stack = s.stack := rfl
@[simp] theorem State.tick_sp (s : State) : s.tick.sp = s.sp := rfl
@[simp] theorem State.tick_dt (s : State) : s.tick.dt = countDown s.dt := rfl
@[simp] theorem State.tick_st (s : State) : s.tick.st = countDown s.st := rfl
@[simp] theorem State.tick_display (s : State) : s.tick.display = s.display := rfl
@[simp] theorem State.tick_mem (s : State) : s.tick.mem = s.mem := rfl
@[simp] theorem State.tick_keys (s : State) : s.tick.keys = s.keys := rfl
@[simp] theorem State.tick_snap (s : State) : s.tick.snap = s.snap := rfl
@[simp] theorem State.tick_kw (s : State) : s.tick.kw = s.kw := rfl
@[simp] theorem State.tick_kdet (s : State) : s.tick.kdet = s.kdet := rfl
@[simp] theorem State.tick_fault (s : State) : s.tick.fault = s.fault := rfl
@[simp] theorem State.tick_faultPc (s : State) : s.tick.faultPc = s.faultPc := rfl
@[simp] theorem State.tick_faultAddr (s : State) : s.tick.faultAddr = s.faultAddr := rfl
@[simp] theorem State.tick_cfg (s : State) : s.tick.cfg = s.cfg := rfl
@[simp] theorem State.tick_draws (s : State) : s.tick.draws = s.draws := rfl
@[simp] theorem State.tick_inbox (s : State) : s.tick.inbox = s.inbox := rfl
@[simp] theorem State.tick_reply (s : State) : s.tick.reply = s.reply := rfl
@[simp] theorem State.tick_reg (s : State) (r : Nibble) : s.tick.reg r = s.reg r := rfl
@[simp] theorem State.tick_readByte (s : State) (m : Nat) : s.tick.readByte m = s.readByte m := rfl

/-! ### State.setKey -/

@[simp] theorem State.setKey_v (s : State) (k : Fin 16) (p : Bool) : (s.setKey k p).v = s.v := rfl
@[simp] theorem State.setKey_i (s : State) (k : Fin 16) (p : Bool) : (s.setKey k p).i = s.i := rfl
@[simp] theorem State.setKey_pc (s : State) (k : Fin 16) (p : Bool) : (s.setKey k p).pc = s.pc := rfl
@[simp] theorem State.setKey_stack (s : State) (k : Fin 16) (p : Bool) : (s.setKey k p).stack = s.stack := rfl
@[simp] theorem State.setKey_sp (s : State) (k : Fin 16) (p : Bool) : (s.setKey k p).sp = s.sp := rfl
@[simp] theorem State.setKey_dt (s : State) (k : Fin 16) (p : Bool) : (s.setKey k p).dt = s.dt := rfl
@[simp] theorem State.setKey_st (s : State) (k : Fin 16) (p : Bool) : (s.setKey k p).st = s.st := rfl
@[simp] theorem State.setKey_display (s : State) (k : Fin 16) (p : Bool) : (s.setKey k p).display = s.display := rfl
@[simp] theorem State.setKey_mem (s : State) (k : Fin 16) (p : Bool) : (s.setKey k p).mem = s.mem := rfl
@[simp] theorem State.setKey_keys (s : State) (k : Fin 16) (p : Bool) : (s.setKey k p).keys = s.keys.set k.val p := rfl
@[simp] theorem State.setKey_snap (s : State) (k : Fin 16) (p : Bool) : (s.setKey k p).snap = s.snap := rfl
@[simp] theorem State.setKey_kw (s : State) (k : Fin 16) (p : Bool) : (s.setKey k p).kw = s.kw := rfl
@[simp] theorem State.setKey_kdet (s : State) (k : Fin 16) (p : Bool) : (s.setKey k p).kdet = s.kdet := rfl
@[simp] theorem State.setKey_fault (s : State) (k : Fin 16) (p : Bool) : (s.setKey k p).fault = s.fault := rfl
@[simp] theorem State.setKey_faultPc (s : State) (k : Fin 16) (p : Bool) : (s.setKey k p).faultPc = s.faultPc := rfl
@[simp] theorem State.setKey_faultAddr (s : State) (k : Fin 16) (p : Bool) : (s.setKey k p).faultAddr = s.faultAddr := rfl
@[simp] theorem State.setKey_cfg (s : State) (k : Fin 16) (p : Bool) : (s.setKey k p).cfg = s.cfg := rfl
@[simp] theorem State.setKey_draws (s : State) (k : Fin 16) (p : Bool) : (s.setKey k p).draws = s.draws := rfl
@[simp] theorem State.setKey_inbox (s : State) (k : Fin 16) (p : Bool) : (s.setKey k p).inbox = s.inbox := rfl
@[simp] theorem State.setKey_reply (s : State) (k : Fin 16) (p : Bool) : (s.setKey k p).reply = s.reply := rfl
@[simp] theorem State.setKey_reg (s : State) (k : Fin 16) (p : Bool) (r : Nibble) : (s.setKey k p).reg r = s.reg r := rfl
@[simp] theorem State.setKey_readByte (s : State) (k : Fin 16) (p : Bool) (m : Nat) : (s.setKey k p).readByte m = s.readByte m := rfl

/-! ### State.answer -/

@[simp] theorem State.answer_v (s : State) (l : LoadResult) : (s.answer l).v = s.v := rfl
@[simp] theorem State.answer_i (s : State) (l : LoadResult) : (s.answer l).i = s.i := rfl
@[simp] theorem State.answer_pc (s : State) (l : LoadResult) : (s.answer l).pc = s.pc := rfl
@[simp] theorem State.answer_stack (s : State) (l : LoadResult) : (s.answer l).stack = s.stack := rfl
@[simp] theorem State.answer_sp (s : State) (l : LoadResult) : (s.answer l).sp = s.sp := rfl
@[simp] theorem State.answer_dt (s : State) (l : LoadResult) : (s.answer l).dt = s.dt := rfl
@[simp] theorem State.answer_st (s : State) (l : LoadResult) : (s.answer l).st = s.st := rfl
@[simp] theorem State.answer_display (s : State) (l : LoadResult) : (s.answer l).display = s.display := rfl
@[simp] theorem State.answer_mem (s : State) (l : LoadResult) : (s.answer l).mem = s.mem := rfl
@[simp] theorem State.answer_keys (s : State) (l : LoadResult) : (s.answer l).keys = s.keys := rfl
@[simp] theorem State.answer_snap (s : State) (l : LoadResult) : (s.answer l).snap = s.snap := rfl
@[simp] theorem State.answer_kw (s : State) (l : LoadResult) : (s.answer l).kw = s.kw := rfl
@[simp] theorem State.answer_kdet (s : State) (l : LoadResult) : (s.answer l).kdet = s.kdet := rfl
@[simp] theorem State.answer_fault (s : State) (l : LoadResult) : (s.answer l).fault = s.fault := rfl
@[simp] theorem State.answer_faultPc (s : State) (l : LoadResult) : (s.answer l).faultPc = s.faultPc := rfl
@[simp] theorem State.answer_faultAddr (s : State) (l : LoadResult) : (s.answer l).faultAddr = s.faultAddr := rfl
@[simp] theorem State.answer_cfg (s : State) (l : LoadResult) : (s.answer l).cfg = s.cfg := rfl
@[simp] theorem State.answer_draws (s : State) (l : LoadResult) : (s.answer l).draws = s.draws := rfl
@[simp] theorem State.answer_inbox (s : State) (l : LoadResult) : (s.answer l).inbox = s.inbox := rfl
@[simp] theorem State.answer_reply (s : State) (l : LoadResult) : (s.answer l).reply = some l := rfl
@[simp] theorem State.answer_reg (s : State) (l : LoadResult) (r : Nibble) : (s.answer l).reg r = s.reg r := rfl
@[simp] theorem State.answer_readByte (s : State) (l : LoadResult) (m : Nat) : (s.answer l).readByte m = s.readByte m := rfl

/-! ### State.popRequest -/

@[simp] theorem State.popRequest_v (s : State) : s.popRequest.v = s.v := rfl
@[simp] theorem State.popRequest_i (s : State) : s.popRequest.i = s.i := rfl
@[simp] theorem State.popRequest_pc (s : State) : s.popRequest.pc = s.pc := rfl
@[simp] theorem State.popRequest_stack (s : State) : s.popRequest.stack = s.stack := rfl
@[simp] theorem State.popRequest_sp (s : State) : s.popRequest.sp = s.sp := rfl
@[simp] theorem State.popRequest_dt (s : State) : s.popRequest.dt = s.dt := rfl
@[simp] theorem State.popRequest_st (s : State) : s.popRequest.st = s.st := rfl
@[simp] theorem State.popRequest_display (s : State) : s.popRequest.display = s.display := rfl
@[simp] theorem State.popRequest_mem (s : State) : s.popRequest.mem = s.mem := rfl
@[simp] theorem State.popRequest_keys (s : State) : s.popRequest.keys = s.keys := rfl
@[simp] theorem State.popRequest_snap (s : State) : s.popRequest.snap = s.snap := rfl
@[simp] theorem State.popRequest_kw (s : State) : s.popRequest.kw = s.kw := rfl
@[simp] theorem State.popRequest_kdet (s : State) : s.popRequest.kdet = s.kdet := rfl
@[simp] theorem State.popRequest_fault (s : State) : s.popRequest.fault = s.fault := rfl
@[simp] theorem State.popRequest_faultPc (s : State) : s.popRequest.faultPc = s.faultPc := rfl
@[simp] theorem State.popRequest_faultAddr (s : State) : s.popRequest.faultAddr = s.faultAddr := rfl
@[simp] theorem State.popRequest_cfg (s : State) : s.popRequest.cfg = s.cfg := rfl
@[simp] theorem State.popRequest_draws (s : State) : s.popRequest.draws = s.draws := rfl
@[simp] theorem State.popRequest_inbox (s : State) : s.popRequest.inbox = s.inbox.tail := rfl
@[simp] theorem State.popRequest_reply (s : State) : s.popRequest.reply = s.reply := rfl
@[simp] theorem State.popRequest_reg (s : State) (r : Nibble) : s.popRequest.reg r = s.reg r := rfl
@[simp] theorem State.popRequest_readByte (s : State) (m : Nat) : s.popRequest.readByte m = s.readByte m := rfl

/-! ### State.skipIf -/

@[simp] theorem State.skipIf_v (s : State) (c : Bool) : (s.skipIf c).v = s.v := by unfold State.skipIf; split <;> rfl
@[simp] theorem State.skipIf_i (s : State) (c : Bool) : (s.skipIf c).i = s.i := by unfold State.skipIf; split <;> rfl
@[simp] theorem State.skipIf_pc (s : State) (c : Bool) : (s.skipIf c).pc = if c then s.pc + 2 else s.pc := by unfold State.skipIf; split <;> rfl
@[simp] theorem State.skipIf_stack (s : State) (c : Bool) : (s.skipIf c).stack = s.stack := by unfold State.skipIf; split <;> rfl
@[simp] theorem State.skipIf_sp (s : State) (c : Bool) : (s.skipIf c).sp = s.sp := by unfold State.skipIf; split <;> rfl
@[simp] theorem State.skipIf_dt (s : State) (c : Bool) : (s.skipIf c).dt = s.dt := by unfold State.skipIf; split <;> rfl
@[simp] theorem State.skipIf_st (s : State) (c : Bool) : (s.skipIf c).st = s.st := by unfold State.skipIf; split <;> rfl
@[simp] theorem State.skipIf_display (s : State) (c : Bool) : (s.skipIf c).display = s.display := by unfold State.skipIf; split <;> rfl
@[simp] theorem State.skipIf_mem (s : State) (c : Bool) : (s.skipIf c).mem = s.mem := by unfold State.skipIf; split <;> rfl
@[simp] theorem State.skipIf_keys (s : State) (c : Bool) : (s.skipIf c).keys = s.keys := by unfold State.skipIf; split <;> rfl
@[simp] theorem State.skipIf_snap (s : State) (c : Bool) : (s.skipIf c).snap = s.snap := by unfold State.skipIf; split <;> rfl
@[simp] theorem State.skipIf_kw (s : State) (c : Bool) : (s.skipIf c).kw = s.kw := by unfold State.skipIf; split <;> rfl
@[simp] theorem State.skipIf_kdet (s : State) (c : Bool) : (s.skipIf c).kdet = s.kdet := by unfold State.skipIf; split <;> rfl
@[simp] theorem State.skipIf_fault (s : State) (c : Bool) : (s.skipIf c).fault = s.fault := by unfold State.skipIf; split <;> rfl
@[simp] theorem State.skipIf_faultPc (s : State) (c : Bool) : (s.skipIf c).faultPc = s.faultPc := by unfold State.skipIf; split <;> rfl
@[simp] theorem State.skipIf_faultAddr (s : State) (c : Bool) : (s.skipIf c).faultAddr = s.faultAddr := by unfold State.skipIf; split <;> rfl
@[simp] theorem State.skipIf_cfg (s : State) (c : Bool) : (s.skipIf c).cfg = s.cfg := by unfold State.skipIf; split <;> rfl
@[simp] theorem State.skipIf_draws (s : State) (c : Bool) : (s.skipIf c).draws = s.draws := by unfold State.skipIf; split <;> rfl
@[simp] theorem State.skipIf_inbox (s : State) (c : Bool) : (s.skipIf c).inbox = s.inbox := by unfold State.skipIf; split <;> rfl
@[simp] theorem State.skipIf_reply (s : State) (c : Bool) : (s.skipIf c).reply = s.reply := by unfold State.skipIf; split <;> rfl
@[simp] theorem State.skipIf_reg (s : State) (c : Bool) (r : Nibble) : (s.skipIf c).reg r = s.reg r := by unfold State.skipIf; split <;> rfl
@[simp] theorem State.skipIf_readByte (s : State) (c : Bool) (m : Nat) : (s.skipIf c).readByte m = s.readByte m := by unfold State.skipIf; split <;> rfl

/-! ### State.snapshot -/

@[simp] theorem State.snapshot_v (s : State) : s.snapshot.v = s.v := by unfold State.snapshot; split <;> rfl
@[simp] theorem State.snapshot_i (s : State) : s.snapshot.i = s.i := by unfold State.snapshot; split <;> rfl
@[simp] theorem State.snapshot_pc (s : State) : s.snapshot.pc = s.pc := by unfold State.snapshot; split <;> rfl
@[simp] theorem State.snapshot_stack (s : State) : s.snapshot.stack = s.stack := by unfold State.snapshot; split <;> rfl
@[simp] theorem State.snapshot_sp (s : State) : s.snapshot.sp = s.sp := by unfold State.snapshot; split <;> rfl
@[simp] theorem State.snapshot_dt (s : State) : s.snapshot.dt = s.dt := by unfold State.snapshot; split <;> rfl
@[simp] theorem State.snapshot_st (s : State) : s.snapshot.st = s.st := by unfold State.snapshot; split <;> rfl
@[simp] theorem State.snapshot_display (s : State) : s.snapshot.display = s.display := by unfold State.snapshot; split <;> rfl
@[simp] theorem State.snapshot_mem (s : State) : s.snapshot.mem = s.mem := by unfold State.snapshot; split <;> rfl
@[simp] theorem State.snapshot_keys (s : State) : s.snapshot.keys = s.keys := by unfold State.snapshot; split <;> rfl
@[simp] theorem State.snapshot_snap (s : State) : s.snapshot.snap = if s.kw = .idle then s.keys else s.snap := by unfold State.snapshot; split <;> rfl
@[simp] theorem State.snapshot_kw (s : State) : s.snapshot.kw = s.kw := by unfold State.snapshot; split <;> rfl
@[simp] theorem State.snapshot_kdet (s : State) : s.snapshot.kdet = s.kdet := by unfold State.snapshot; split <;> rfl
@[simp] theorem State.snapshot_fault (s : State) : s.snapshot.fault = s.fault := by unfold State.snapshot; split <;> rfl
@[simp] theorem State.snapshot_faultPc (s : State) : s.snapshot.faultPc = s.faultPc := by unfold State.snapshot; split <;> rfl
@[simp] theorem State.snapshot_faultAddr (s : State) : s.snapshot.faultAddr = s.faultAddr := by unfold State.snapshot; split <;> rfl
@[simp] theorem State.snapshot_cfg (s : State) : s.snapshot.cfg = s.cfg := by unfold State.snapshot; split <;> rfl
@[simp] theorem State.snapshot_draws (s : State) : s.snapshot.draws = s.draws := by unfold State.snapshot; split <;> rfl
@[simp] theorem State.snapshot_inbox (s : State) : s.snapshot.inbox = s.inbox := by unfold State.snapshot; split <;> rfl
@[simp] theorem State.snapshot_reply (s : State) : s.snapshot.reply = s.reply := by unfold State.snapshot; split <;> rfl
@[simp] theorem State.snapshot_reg (s : State) (r : Nibble) : s.snapshot.reg r = s.reg r := by unfold State.snapshot; split <;> rfl
@[simp] theorem State.snapshot_readByte (s : State) (m : Nat) : s.snapshot.readByte m = s.readByte m := by unfold State.snapshot; split <;> rfl

/-! ### State.storeBytes: everything but memory is as before -/

@[simp] theorem State.storeBytes_v (s : State) (a : Nat) (bs : List Byte) : (s.storeBytes a bs).v = s.v := by
  induction bs generalizing s a with
  | nil => rfl
  | cons b bs ih => exact ih (s.writeByte a b) (a + 1)
@[simp] theorem State.storeBytes_i (s : State) (a : Nat) (bs : List Byte) : (s.storeBytes a bs).i = s.i := by
  induction bs generalizing s a with
  | nil => rfl
  | cons b bs ih => exact ih (s.writeByte a b) (a + 1)
@[simp] theorem State.storeBytes_pc (s : State) (a : Nat) (bs : List Byte) : (s.storeBytes a bs).pc = s.pc := by
  induction bs generalizing s a with
  | nil => rfl
  | cons b bs ih => exact ih (s.writeByte a b) (a + 1)
@[simp] theorem State.storeBytes_stack (s : State) (a : Nat) (bs : List Byte) : (s.storeBytes a bs).stack = s.stack := by
  induction bs generalizing s a with
  | nil => rfl
  | cons b bs ih => exact ih (s.writeByte a b) (a + 1)
@[simp] theorem State.storeBytes_sp (s : State) (a : Nat) (bs : List Byte) : (s.storeBytes a bs).sp = s.sp := by
  induction bs generalizing s a with
  | nil => rfl
  | cons b bs ih => exact ih (s.writeByte a b) (a + 1)
@[simp] theorem State.storeBytes_dt (s : State) (a : Nat) (bs : List Byte) : (s.storeBytes a bs).dt = s.dt := by
  induction bs generalizing s a with
  | nil => rfl
  | cons b bs ih => exact ih (s.writeByte a b) (a + 1)
@[simp] theorem State.storeBytes_st (s : State) (a : Nat) (bs : List Byte) : (s.storeBytes a bs).st = s.st := by
  induction bs generalizing s a with
  | nil => rfl
  | cons b bs ih => exact ih (s.writeByte a b) (a + 1)
@[simp] theorem State.storeBytes_display (s : State) (a : Nat) (bs : List Byte) : (s.storeBytes a bs).display = s.display := by
  induction bs generalizing s a with
  | nil => rfl
  | cons b bs ih => exact ih (s.writeByte a b) (a + 1)
@[simp] theorem State.storeBytes_keys (s : State) (a : Nat) (bs : List Byte) : (s.storeBytes a bs).keys = s.keys := by
  induction bs generalizing s a with
  | nil => rfl
  | cons b bs ih => exact ih (s.writeByte a b) (a + 1)
@[simp] theorem State.storeBytes_snap (s : State) (a : Nat) (bs : List Byte) : (s.storeBytes a bs).snap = s.snap := by
  induction bs generalizing s a with
  | nil => rfl
  | cons b bs ih => exact ih (s.writeByte a b) (a + 1)
@[simp] theorem State.storeBytes_kw (s : State) (a : Nat) (bs : List Byte) : (s.storeBytes a bs).kw = s.kw := by
  induction bs generalizing s a with
  | nil => rfl
  | cons b bs ih => exact ih (s.writeByte a b) (a + 1)
@[simp] theorem State.storeBytes_kdet (s : State) (a : Nat) (bs : List Byte) : (s.storeBytes a bs).kdet = s.kdet := by
  induction bs generalizing s a with
  | nil => rfl
  | cons b bs ih => exact ih (s.writeByte a b) (a + 1)
@[simp] theorem State.storeBytes_fault (s : State) (a : Nat) (bs : List Byte) : (s.storeBytes a bs).fault = s.fault := by
  induction bs generalizing s a with
  | nil => rfl
  | cons b bs ih => exact ih (s.writeByte a b) (a + 1)
@[simp] theorem State.storeBytes_faultPc (s : State) (a : Nat) (bs : List Byte) : (s.storeBytes a bs).faultPc = s.faultPc := by
  induction bs generalizing s a with
  | nil => rfl
  | cons b bs ih => exact ih (s.writeByte a b) (a + 1)
@[simp] theorem State.storeBytes_faultAddr (s : State) (a : Nat) (bs : List Byte) : (s.storeBytes a bs).faultAddr = s.faultAddr := by
  induction bs generalizing s a with
  | nil => rfl
  | cons b bs ih => exact ih (s.writeByte a b) (a + 1)
@[simp] theorem State.storeBytes_cfg (s : State) (a : Nat) (bs : List Byte) : (s.storeBytes a bs).cfg = s.cfg := by
  induction bs generalizing s a with
  | nil => rfl
  | cons b bs ih => exact ih (s.writeByte a b) (a + 1)
@[simp] theorem State.storeBytes_draws (s : State) (a : Nat) (bs : List Byte) : (s.storeBytes a bs).draws = s.draws := by
  induction bs generalizing s a with
  | nil => rfl
  | cons b bs ih => exact ih (s.writeByte a b) (a + 1)
@[simp] theorem State.storeBytes_inbox (s : State) (a : Nat) (bs : List Byte) : (s.storeBytes a bs).inbox = s.inbox := by
  induction bs generalizing s a with
  | nil => rfl
  | cons b bs ih => exact ih (s.writeByte a b) (a + 1)
@[simp] theorem State.storeBytes_reply (s : State) (a : Nat) (bs : List Byte) : (s.storeBytes a bs).reply = s.reply := by
  induction bs generalizing s a with
  | nil => rfl
  | cons b bs ih => exact ih (s.writeByte a b) (a + 1)
@[simp] theorem State.storeBytes_reg (s : State) (a : Nat) (bs : List Byte) (r : Nibble) :
    (s.storeBytes a bs).reg r = s.reg r := by simp [State.reg]

/-! ### The composite updates are the basic ones -/

@[simp] theorem State.advance_eq (s : State) : s.advance = s.setPc (s.pc + 2) := rfl
@[simp] theorem State.rewind_eq (s : State) : s.rewind = s.setPc (s.pc - 2) := rfl
@[simp] theorem State.raise_eq (s : State) (c : FaultCause) (a : Nat) : s.raise c a = s.enterFault c (s.pc - 2) a := rfl
@[simp] theorem State.setFlagThenReg_eq (s : State) (f : Byte) (x : Nibble) (b : Byte) :
    s.setFlagThenReg f x b = (s.setReg vf f).setReg x b := rfl
@[simp] theorem State.rndWith_eq (s : State) (r : Byte) (x : Nibble) (kk : Byte) :
    s.rndWith r x kk = s.countDraw.setReg x (r &&& kk) := rfl

end Sys2Proof.Machine
end

