-- ==== Sys2Proof/Laws/Display.lean ====
section
/-! SUPPORT. The compositor's operations: what a flip does to a pixel, and that every drawing operation keeps the display's
shape. -/

namespace Sys2Proof.Machine

/-- A flip inverts its own pixel, where the grid has one, and no other (R103). -/
theorem Grid.flip_pixel {c : Config} {d : Grid} (h : gridShape c d) (r q r' q' : Nat) :
    (d.flip r q).pixel r' q' =
      if r' = r ∧ q' = q ∧ r < c.height ∧ q < c.width then !(d.pixel r' q') else d.pixel r' q' := by
  unfold Grid.flip Grid.pixel
  simp only [List.getD_eq_getElem?_getD, List.getElem?_modify]
  by_cases hr : r' = r
  · subst hr
    cases hd : d[r']? with
    | none =>
      have : ¬ r' < c.height := by rw [← h.1]; simpa using hd
      simp [this]
    | some row =>
      obtain ⟨hlt, e⟩ := List.getElem?_eq_some_iff.1 hd
      have hw : row.length = c.width := h.2 row (e ▸ List.getElem_mem hlt)
      by_cases hq : q' = q
      · subst hq
        by_cases hc : q' < c.width
        · have : r' < c.height := h.1 ▸ hlt
          simp [hc, this, hw]
        · have : row.length ≤ q' := by omega
          simp [hc, List.getElem?_eq_none this]
      · have : ¬ q = q' := fun e => hq e.symm
        simp [hq, this]
  · have : ¬ r = r' := fun e => hr e.symm
    simp [hr, this]

theorem Grid.flip_shape {c : Config} {d : Grid} (r q : Nat) (h : gridShape c d) : gridShape c (d.flip r q) := by
  refine ⟨by simpa [Grid.flip] using h.1, fun row hrow => ?_⟩
  obtain ⟨k, hk, e⟩ := List.getElem_of_mem hrow
  rw [← e]
  simp only [Grid.flip, List.getElem_modify]
  split
  · simpa using h.2 _ (List.getElem_mem _)
  · exact h.2 _ (List.getElem_mem _)

theorem Grid.blank_shape (c : Config) : gridShape c (Grid.blank c) := by
  simp [Grid.blank, gridShape]

@[simp] theorem Grid.blank_pixel (c : Config) (r q : Nat) : (Grid.blank c).pixel r q = false := by
  simp only [Grid.blank, Grid.pixel, List.getD_eq_getElem?_getD, List.getElem?_replicate]
  split <;> simp [List.getElem?_replicate]
  split <;> simp

theorem drawBits_shape {g : Config} (cx py : Nat) (row : Byte) (c k : Nat) {acc : Grid × Bool}
    (h : gridShape g acc.1) : gridShape g (drawBits g cx py row c k acc).1 := by
  induction k generalizing c acc with
  | zero => exact h
  | succ k ih =>
    apply ih
    split
    · exact Grid.flip_shape _ _ h
    · exact h

/-- A draw keeps the display's shape. -/
theorem drawRows_shape {g : Config} (cx cy r : Nat) (rows : List Byte) {acc : Grid × Bool}
    (h : gridShape g acc.1) : gridShape g (drawRows g cx cy r rows acc).1 := by
  induction rows generalizing r acc with
  | nil => exact h
  | cons row rows ih => exact ih (r + 1) (drawBits_shape cx _ row 0 8 h)

end Sys2Proof.Machine
end

