-- ==== Sys2Proof/Laws/Ops.lean ====
section
/-! SUPPORT. One lemma per shared operation, saying once everything it can do: registers, memory and its canonical form, the
range check, the call stack, the fetch, the Cycle. -/

namespace Sys2Proof.Machine

/-! ## Registers -/

/-- Reading a register after writing one (R11). -/
theorem State.setReg_reg (s : State) (x r : Nibble) (b : Byte) : (s.setReg x b).reg r = if r = x then b else s.reg r := by
  unfold State.reg State.setReg
  simp only [Vector.getElem_set]
  by_cases h : r = x
  · simp [h]
  · have : x.toNat ≠ r.toNat := fun e => h (BitVec.eq_of_toNat_eq e.symm)
    simp [h, this]

@[simp] theorem State.setReg_reg_same (s : State) (x : Nibble) (b : Byte) : (s.setReg x b).reg x = b := by
  simp [State.setReg_reg]

@[simp] theorem State.setReg_reg_ne (s : State) {x r : Nibble} (b : Byte) (h : r ≠ x) :
    (s.setReg x b).reg r = s.reg r := by
  simp [State.setReg_reg, h]

/-- Two register files that read alike are one. -/
theorem regs_ext {s t : State} (h : ∀ r, t.reg r = s.reg r) : t.v = s.v := by
  apply Vector.ext
  intro k hk
  have := h (BitVec.ofNat 4 k)
  simpa [State.reg, Nat.mod_eq_of_lt hk] using this

/-! ## Memory -/

theorem Memory.find?_put (m : Memory) (a c : Nat) (x : Byte) :
    Memory.find? (Memory.put m a x) c = if c = a then some x else Memory.find? m c := by
  induction m with
  | nil => simp [Memory.put, Memory.find?, eq_comm]
  | cons p m ih =>
    obtain ⟨b, y⟩ := p
    simp only [Memory.put]
    split
    · simp only [Memory.find?, ih]; grind
    · split <;> simp only [Memory.find?] <;> grind

theorem Memory.find?_erase (m : Memory) (a c : Nat) :
    Memory.find? (Memory.erase m a) c = if c = a then none else Memory.find? m c := by
  induction m with
  | nil => simp [Memory.erase, Memory.find?]
  | cons p m ih =>
    obtain ⟨b, y⟩ := p
    simp only [Memory.erase, List.filter_cons] at ih ⊢
    by_cases hb : b = a <;> grind [Memory.find?]

/-- A read after a write: the byte written at its address, every other as before (R37). -/
@[simp] theorem State.writeByte_readByte (s : State) (a c : Nat) (x : Byte) :
    (s.writeByte a x).readByte c = if c = a then x else s.readByte c := by
  simp only [State.readByte, State.writeByte, Memory.write]
  split
  · rw [Memory.find?_erase]; grind
  · rw [Memory.find?_put]; grind

/-- Reading a byte after a run of stores: the byte stored there, every byte outside as before. -/
theorem State.storeBytes_readByte (s : State) (a c : Nat) (bs : List Byte) :
    (s.storeBytes a bs).readByte c = if h : a ≤ c ∧ c < a + bs.length then bs[c - a]'(by omega) else s.readByte c := by
  induction bs generalizing s a with
  | nil => simp [State.storeBytes]
  | cons b bs ih =>
    rw [State.storeBytes, ih, State.writeByte_readByte]
    by_cases h1 : a + 1 ≤ c ∧ c < a + 1 + bs.length
    · have e : c - a = (c - (a + 1)) + 1 := by omega
      have h2 : a ≤ c ∧ c < a + (b :: bs).length := by simp; omega
      rw [dif_pos h1, dif_pos h2]; simp only [e, List.getElem_cons_succ]
    · rw [dif_neg h1]
      by_cases h3 : c = a
      · subst h3; simp
      · have h2 : ¬ (a ≤ c ∧ c < a + (b :: bs).length) := by simp; omega
        rw [dif_neg h2, if_neg h3]

theorem Memory.mem_put {m : Memory} {a : Nat} {x : Byte} {p : Host.Cell} (h : p ∈ Memory.put m a x) :
    p = (a, x) ∨ p ∈ m := by
  induction m with
  | nil => simpa [Memory.put] using h
  | cons q m ih =>
    obtain ⟨b, y⟩ := q
    simp only [Memory.put] at h
    split at h
    · rcases List.mem_cons.1 h with h | h
      · exact .inr (h ▸ List.mem_cons_self)
      · rcases ih h with h | h
        · exact .inl h
        · exact .inr (List.mem_cons_of_mem _ h)
    · split at h
      · rcases List.mem_cons.1 h with h | h
        · exact .inl h
        · exact .inr (List.mem_cons_of_mem _ h)
      · rcases List.mem_cons.1 h with h | h
        · exact .inl h
        · exact .inr h

theorem Memory.put_sorted {m : Memory} (a : Nat) (x : Byte) (h : m.Pairwise (fun p q => p.1 < q.1)) :
    (Memory.put m a x).Pairwise (fun p q => p.1 < q.1) := by
  induction m with
  | nil => simp [Memory.put]
  | cons q m ih =>
    obtain ⟨b, y⟩ := q
    rw [List.pairwise_cons] at h
    simp only [Memory.put]
    split
    · rename_i hb
      refine List.pairwise_cons.2 ⟨fun p hp => ?_, ih h.2⟩
      rcases Memory.mem_put hp with rfl | hp
      · exact hb
      · exact h.1 p hp
    · split
      · rename_i hb
        subst hb
        exact List.pairwise_cons.2 ⟨h.1, h.2⟩
      · refine List.pairwise_cons.2 ⟨fun p hp => ?_, List.pairwise_cons.2 h⟩
        rcases List.mem_cons.1 hp with rfl | hp
        · show a < b; omega
        · have := h.1 p hp; simp only at this ⊢; omega

/-- A write inside memory keeps the canonical form. -/
theorem Memory.write_wf {c : Config} {m : Memory} {a : Nat} (x : Byte) (h : Memory.wf c m) (ha : a ≤ 0xFFF) :
    Memory.wf c (Memory.write c m a x) := by
  unfold Memory.write
  split
  · exact ⟨h.1.filter _, fun p hp => h.2 p (List.mem_filter.1 hp).1⟩
  · rename_i hx
    refine ⟨Memory.put_sorted a x h.1, fun p hp => ?_⟩
    rcases Memory.mem_put hp with rfl | hp
    · exact ⟨ha, hx⟩
    · exact h.2 p hp

/-- Stores inside memory keep the canonical form. -/
theorem State.storeBytes_wf {s : State} (a : Nat) (bs : List Byte) (h : Memory.wf s.cfg s.mem)
    (ha : bs = [] ∨ a + bs.length ≤ 0x1000) : Memory.wf s.cfg (s.storeBytes a bs).mem := by
  induction bs generalizing s a with
  | nil => exact h
  | cons b bs ih =>
    have hb : a + (bs.length + 1) ≤ 0x1000 := by simpa using ha
    refine ih (s := s.writeByte a b) (a + 1) (Memory.write_wf b h (by omega)) ?_
    right; omega

/-- Memory after a reset is in the canonical form. -/
theorem State.resetWith_wf (c : Config) : Memory.wf c (State.resetWith c).mem := by
  simp [Memory.wf, State.resetWith]

/-! ## The range check and the instructions that pass it -/

/-- The check passes exactly when no byte of the range lies above 0xFFF (R41). -/
theorem rangeFault_eq_none {base count : Nat} : rangeFault base count = none ↔ count = 0 ∨ base + count ≤ 0x1000 := by
  cases count with
  | zero => simp [rangeFault]
  | succ k => simp only [rangeFault]; split <;> simp <;> omega

/-- Where the check fails it names the first address of the range above 0xFFF (R41). -/
theorem rangeFault_eq_some {base count a : Nat} :
    rangeFault base count = some a ↔ count ≠ 0 ∧ 0x1000 < base + count ∧ a = max base 0x1000 := by
  cases count with
  | zero => simp [rangeFault]
  | succ k =>
    simp only [rangeFault]
    split
    · simp only [Option.some.injEq]; constructor
      · rintro rfl; exact ⟨by omega, by omega, rfl⟩
      · rintro ⟨-, -, rfl⟩; rfl
    · simp; omega

/-- An instruction with a data range either has its effect or takes an AddressFault; which, the range alone decides. -/
theorem withRange_cases (s : State) (base count : Nat) (next : State) :
    ((count = 0 ∨ base + count ≤ 0x1000) ∧ withRange s base count next = next) ∨
    (count ≠ 0 ∧ 0x1000 < base + count ∧
      withRange s base count next = s.raise .addressFault (max base 0x1000)) := by
  unfold withRange
  cases h : rangeFault base count with
  | none => exact .inl ⟨rangeFault_eq_none.1 h, rfl⟩
  | some a =>
    obtain ⟨h1, h2, rfl⟩ := rangeFault_eq_some.1 h
    exact .inr ⟨h1, h2, rfl⟩

theorem withRange_ok {s : State} {base count : Nat} (next : State) (h : count = 0 ∨ base + count ≤ 0x1000) :
    withRange s base count next = next := by
  simp [withRange, rangeFault_eq_none.2 h]

theorem withRange_fault {s : State} {base count : Nat} (next : State) (h0 : count ≠ 0) (h : 0x1000 < base + count) :
    withRange s base count next = s.raise .addressFault (max base 0x1000) := by
  simp [withRange, rangeFault_eq_some.2 ⟨h0, h, rfl⟩]

/-! ## The call stack -/

/-- A push succeeds exactly below depth 16 (R20). -/
theorem State.push_cases (s : State) (w : Word) :
    (∃ h : s.sp.val < 16, s.push w =
      some { s with stack := s.stack.set s.sp.val w h, sp := ⟨s.sp.val + 1, by omega⟩ }) ∨
    (s.sp.val = 16 ∧ s.push w = none) := by
  unfold State.push
  by_cases h : s.sp.val < 16
  · exact .inl ⟨h, by simp [h]⟩
  · exact .inr ⟨by omega, by simp [h]⟩

/-- A pop succeeds exactly above depth 0 (R20). -/
theorem State.pop_cases (s : State) :
    (∃ h : 0 < s.sp.val, s.pop =
      some (s.stack[s.sp.val - 1]'(by omega), { s with sp := ⟨s.sp.val - 1, by omega⟩ })) ∨
    (s.sp.val = 0 ∧ s.pop = none) := by
  unfold State.pop
  by_cases h : 0 < s.sp.val
  · exact .inl ⟨h, by simp [h]⟩
  · exact .inr ⟨by omega, by simp [h]⟩

/-! ## The fetch and the Cycle -/

/-- A fetch reads two bytes, or names the first address outside memory (R40). -/
theorem State.fetch_cases (s : State) :
    (s.pc.toNat ≤ 0xFFE ∧ s.fetch = .ok (s.readByte s.pc.toNat, s.readByte (s.pc.toNat + 1))) ∨
    (0xFFE < s.pc.toNat ∧ s.fetch = .error (max s.pc.toNat 0x1000)) := by
  unfold State.fetch
  cases h : rangeFault s.pc.toNat 2 with
  | none =>
    have := rangeFault_eq_none.1 h
    exact .inl ⟨by omega, rfl⟩
  | some a =>
    obtain ⟨-, h2, rfl⟩ := rangeFault_eq_some.1 h
    exact .inr ⟨by omega, rfl⟩

/-- Everything a Cycle can do: nothing while faulted, a fetch fault, or the decoded instruction. -/
theorem cycle_cases (s : State) :
    (s.fault ≠ .none ∧ cycle s = .next s) ∨
    (s.fault = .none ∧ 0xFFE < s.pc.toNat ∧
      cycle s = .next (s.snapshot.enterFault .addressFault s.pc (max s.pc.toNat 0x1000))) ∨
    (s.fault = .none ∧ s.pc.toNat ≤ 0xFFE ∧
      cycle s = exec (decodeWord (s.wordAt s.pc.toNat)) s.snapshot.advance) := by
  unfold cycle
  by_cases hf : s.fault = .none
  · right
    rcases s.snapshot.fetch_cases with ⟨h, e⟩ | ⟨h, e⟩
    · exact .inr ⟨hf, by simpa using h, by simp [hf, e, State.wordAt]⟩
    · exact .inl ⟨hf, by simpa using h, by simp [hf, e]⟩
  · exact .inl ⟨hf, by simp [hf]⟩

/-- Everything the meaning of an instruction can answer: always a next state. -/
theorem exec_next (i : Instr) (s : State) : ∃ t, exec i s = .next t := by
  cases i with
  | ret =>
    rcases s.pop_cases with ⟨h, e⟩ | ⟨h, e⟩ <;> exact ⟨_, by simp [exec, execRet, e]; rfl⟩
  | call addr =>
    rcases s.push_cases s.pc with ⟨h, e⟩ | ⟨h, e⟩ <;> exact ⟨_, by simp [exec, execCall, e]; rfl⟩
  | ldVxK x => cases h : s.kw <;> exact ⟨_, by simp [exec, execLdVxK, h]; rfl⟩
  | _ => exact ⟨_, rfl⟩

end Sys2Proof.Machine
end

