-- ==== Sys2Proof/Laws/PerInstr.lean ====
section
/-! SUPPORT. Statements made per instruction: one lemma per constructor of `Instr`. -/

namespace Sys2Proof.Laws

/-- A word of format A under a family mask. -/
theorem wordA_mask (op : Nibble) (a : Addr) : wordA op a &&& 0xF000 = wordA op 0 := by
  unfold wordA; ext i hi
  have : i < 16 := hi
  interval_cases i <;> simp

/-- A word of format XK under a family mask. -/
theorem wordXK_mask (op x : Nibble) (kk : Byte) : wordXK op x kk &&& 0xF000 = wordXK op 0 0 := by
  unfold wordXK; ext i hi
  have : i < 16 := hi
  interval_cases i <;> simp

/-- A word of format XK, XS or Z under a family and sub-code mask. -/
theorem wordXK_mask_kk (op x : Nibble) (kk : Byte) : wordXK op x kk &&& 0xF0FF = wordXK op 0 kk := by
  unfold wordXK; ext i hi
  have : i < 16 := hi
  interval_cases i <;> simp

/-- A word of format XY under a family mask. -/
theorem wordXY_mask (op x y n : Nibble) : wordXY op x y n &&& 0xF000 = wordXY op 0 0 0 := by
  unfold wordXY; ext i hi
  have : i < 16 := hi
  interval_cases i <;> simp

/-- A word of format XY under a family and sub-code mask. -/
theorem wordXY_mask_n (op x y n : Nibble) : wordXY op x y n &&& 0xF00F = wordXY op 0 0 n := by
  unfold wordXY; ext i hi
  have : i < 16 := hi
  interval_cases i <;> simp

/-- The word of a SYS instruction is neither a CLS word nor a RET word when its address is well formed (R60). -/
theorem sys_word_apart {addr : Addr} (h : isSysAddr addr = true) :
    wordA 0x0 addr &&& 0xF0FF ≠ 0x00E0 ∧ wordA 0x0 addr &&& 0xF0FF ≠ 0x00EE := by
  have e : wordA 0x0 addr &&& 0xF0FF = wordA 0x0 (addr &&& 0x0FF) := by
    unfold wordA; ext i hi
    have : i < 16 := hi
    interval_cases i <;> simp
  have key : ∀ b : Addr, wordA 0x0 (addr &&& 0x0FF) = wordA 0x0 b → addr &&& 0x0FF = b := fun b hb => by
    have := congrArg addrOf hb
    simpa using this
  simp only [isSysAddr, List.mem_cons, List.not_mem_nil, or_false, not_or, decide_eq_true_eq] at h
  rw [e]
  exact ⟨fun hb => h.1 (key 0x0E0 (hb.trans (by decide))), fun hb => h.2 (key 0x0EE (hb.trans (by decide)))⟩

/-- A row with a non-zero value takes every word that its mask cuts to that value. -/
theorem takes_of_masked {r : Row} {w : Word} (h : w &&& r.mask = r.value) (h0 : r.value ≠ 0x0000) :
    r.takes w = true := by
  simp only [Row.takes, h, beq_self_eq_true, Bool.true_and, Bool.or_eq_true, bne_iff_ne]
  exact .inl h0

/-- The encoder keeps to the opcode table: the word of a well-formed instruction is one its own row of
spec/opcode_table.json takes, and the word of the default arm is one of the holes of R60. -/
def EncodesOwnRow.Statement (i : Instr) : Prop :=
  i.wellFormed = true →
    match i.row with
    | some r => r.takes (encode i) = true
    | none => isHole (encode i) = true

theorem EncodesOwnRow.sys (addr : Addr) : EncodesOwnRow.Statement (.sys addr) :=
  fun h => by
    have hs := sys_word_apart h
    have hm : wordA 0x0 addr &&& 0xF000 = 0x0000 := (wordA_mask 0x0 addr).trans (by decide)
    simpa [Instr.row, Row.takes, encode] using And.intro hm hs

theorem EncodesOwnRow.cls : EncodesOwnRow.Statement (.cls) :=
  fun _ => takes_of_masked ((wordXK_mask_kk 0x0 0x0 0xE0).trans (by decide)) (by decide)

theorem EncodesOwnRow.ret : EncodesOwnRow.Statement (.ret) :=
  fun _ => takes_of_masked ((wordXK_mask_kk 0x0 0x0 0xEE).trans (by decide)) (by decide)

theorem EncodesOwnRow.jp (addr : Addr) : EncodesOwnRow.Statement (.jp addr) :=
  fun _ => takes_of_masked ((wordA_mask 0x1 addr).trans (by decide)) (by decide)

theorem EncodesOwnRow.call (addr : Addr) : EncodesOwnRow.Statement (.call addr) :=
  fun _ => takes_of_masked ((wordA_mask 0x2 addr).trans (by decide)) (by decide)

theorem EncodesOwnRow.seVxKk (x : Nibble) (kk : Byte) : EncodesOwnRow.Statement (.seVxKk x kk) :=
  fun _ => takes_of_masked ((wordXK_mask 0x3 x kk).trans (by decide)) (by decide)

theorem EncodesOwnRow.sneVxKk (x : Nibble) (kk : Byte) : EncodesOwnRow.Statement (.sneVxKk x kk) :=
  fun _ => takes_of_masked ((wordXK_mask 0x4 x kk).trans (by decide)) (by decide)

theorem EncodesOwnRow.seVxVy (x y : Nibble) : EncodesOwnRow.Statement (.seVxVy x y) :=
  fun _ => takes_of_masked ((wordXY_mask 0x5 x y 0x0).trans (by decide)) (by decide)

theorem EncodesOwnRow.ldVxKk (x : Nibble) (kk : Byte) : EncodesOwnRow.Statement (.ldVxKk x kk) :=
  fun _ => takes_of_masked ((wordXK_mask 0x6 x kk).trans (by decide)) (by decide)

theorem EncodesOwnRow.addVxKk (x : Nibble) (kk : Byte) : EncodesOwnRow.Statement (.addVxKk x kk) :=
  fun _ => takes_of_masked ((wordXK_mask 0x7 x kk).trans (by decide)) (by decide)

theorem EncodesOwnRow.ldVxVy (x y : Nibble) : EncodesOwnRow.Statement (.ldVxVy x y) :=
  fun _ => takes_of_masked ((wordXY_mask_n 0x8 x y 0x0).trans (by decide)) (by decide)

theorem EncodesOwnRow.orVxVy (x y : Nibble) : EncodesOwnRow.Statement (.orVxVy x y) :=
  fun _ => takes_of_masked ((wordXY_mask_n 0x8 x y 0x1).trans (by decide)) (by decide)

theorem EncodesOwnRow.andVxVy (x y : Nibble) : EncodesOwnRow.Statement (.andVxVy x y) :=
  fun _ => takes_of_masked ((wordXY_mask_n 0x8 x y 0x2).trans (by decide)) (by decide)

theorem EncodesOwnRow.xorVxVy (x y : Nibble) : EncodesOwnRow.Statement (.xorVxVy x y) :=
  fun _ => takes_of_masked ((wordXY_mask_n 0x8 x y 0x3).trans (by decide)) (by decide)

theorem EncodesOwnRow.addVxVy (x y : Nibble) : EncodesOwnRow.Statement (.addVxVy x y) :=
  fun _ => takes_of_masked ((wordXY_mask_n 0x8 x y 0x4).trans (by decide)) (by decide)

theorem EncodesOwnRow.subVxVy (x y : Nibble) : EncodesOwnRow.Statement (.subVxVy x y) :=
  fun _ => takes_of_masked ((wordXY_mask_n 0x8 x y 0x5).trans (by decide)) (by decide)

theorem EncodesOwnRow.shrVx (x : Nibble) : EncodesOwnRow.Statement (.shrVx x) :=
  fun _ => takes_of_masked ((wordXY_mask_n 0x8 x 0x0 0x6).trans (by decide)) (by decide)

theorem EncodesOwnRow.subnVxVy (x y : Nibble) : EncodesOwnRow.Statement (.subnVxVy x y) :=
  fun _ => takes_of_masked ((wordXY_mask_n 0x8 x y 0x7).trans (by decide)) (by decide)

theorem EncodesOwnRow.shlVx (x : Nibble) : EncodesOwnRow.Statement (.shlVx x) :=
  fun _ => takes_of_masked ((wordXY_mask_n 0x8 x 0x0 0xE).trans (by decide)) (by decide)

theorem EncodesOwnRow.sneVxVy (x y : Nibble) : EncodesOwnRow.Statement (.sneVxVy x y) :=
  fun _ => takes_of_masked ((wordXY_mask 0x9 x y 0x0).trans (by decide)) (by decide)

theorem EncodesOwnRow.ldIAddr (addr : Addr) : EncodesOwnRow.Statement (.ldIAddr addr) :=
  fun _ => takes_of_masked ((wordA_mask 0xA addr).trans (by decide)) (by decide)

theorem EncodesOwnRow.jpV0 (addr : Addr) : EncodesOwnRow.Statement (.jpV0 addr) :=
  fun _ => takes_of_masked ((wordA_mask 0xB addr).trans (by decide)) (by decide)

theorem EncodesOwnRow.rnd (x : Nibble) (kk : Byte) : EncodesOwnRow.Statement (.rnd x kk) :=
  fun _ => takes_of_masked ((wordXK_mask 0xC x kk).trans (by decide)) (by decide)

theorem EncodesOwnRow.drw (x y n : Nibble) : EncodesOwnRow.Statement (.drw x y n) :=
  fun _ => takes_of_masked ((wordXY_mask 0xD x y n).trans (by decide)) (by decide)

theorem EncodesOwnRow.skp (x : Nibble) : EncodesOwnRow.Statement (.skp x) :=
  fun _ => takes_of_masked ((wordXK_mask_kk 0xE x 0x9E).trans (by decide)) (by decide)

theorem EncodesOwnRow.sknp (x : Nibble) : EncodesOwnRow.Statement (.sknp x) :=
  fun _ => takes_of_masked ((wordXK_mask_kk 0xE x 0xA1).trans (by decide)) (by decide)

theorem EncodesOwnRow.ldVxDt (x : Nibble) : EncodesOwnRow.Statement (.ldVxDt x) :=
  fun _ => takes_of_masked ((wordXK_mask_kk 0xF x 0x07).trans (by decide)) (by decide)

theorem EncodesOwnRow.ldVxK (x : Nibble) : EncodesOwnRow.Statement (.ldVxK x) :=
  fun _ => takes_of_masked ((wordXK_mask_kk 0xF x 0x0A).trans (by decide)) (by decide)

theorem EncodesOwnRow.ldDtVx (x : Nibble) : EncodesOwnRow.Statement (.ldDtVx x) :=
  fun _ => takes_of_masked ((wordXK_mask_kk 0xF x 0x15).trans (by decide)) (by decide)

theorem EncodesOwnRow.ldStVx (x : Nibble) : EncodesOwnRow.Statement (.ldStVx x) :=
  fun _ => takes_of_masked ((wordXK_mask_kk 0xF x 0x18).trans (by decide)) (by decide)

theorem EncodesOwnRow.addIVx (x : Nibble) : EncodesOwnRow.Statement (.addIVx x) :=
  fun _ => takes_of_masked ((wordXK_mask_kk 0xF x 0x1E).trans (by decide)) (by decide)

theorem EncodesOwnRow.ldFVx (x : Nibble) : EncodesOwnRow.Statement (.ldFVx x) :=
  fun _ => takes_of_masked ((wordXK_mask_kk 0xF x 0x29).trans (by decide)) (by decide)

theorem EncodesOwnRow.ldBVx (x : Nibble) : EncodesOwnRow.Statement (.ldBVx x) :=
  fun _ => takes_of_masked ((wordXK_mask_kk 0xF x 0x33).trans (by decide)) (by decide)

theorem EncodesOwnRow.ldMemVx (x : Nibble) : EncodesOwnRow.Statement (.ldMemVx x) :=
  fun _ => takes_of_masked ((wordXK_mask_kk 0xF x 0x55).trans (by decide)) (by decide)

theorem EncodesOwnRow.ldVxMem (x : Nibble) : EncodesOwnRow.Statement (.ldVxMem x) :=
  fun _ => takes_of_masked ((wordXK_mask_kk 0xF x 0x65).trans (by decide)) (by decide)

theorem EncodesOwnRow.nop (word : Word) : EncodesOwnRow.Statement (.nop word) :=
  fun h => h

end Sys2Proof.Laws
end

