-- ==== Sys2Proof/Tests/Slice0.lean ====
section
/-! SUPPORT. Small tests. Every expected value is written out from the spec: the words from R57 and R59, the one-step results
from the vectors T1 to T104 and H1 to H14 of spec/95_test_vectors.md and the examples of the rules. At the end, a named witness
for the hypotheses of every statement that has some. -/

namespace Sys2Proof.Tests

open Sys2Proof Sys2Proof.Machine

/-! ## Well-formedness: one ill-formed term for each check -/

theorem test_wf_sys_of_a_cls_word : (Instr.sys 0x0E0).wellFormed = false := by decide
theorem test_wf_sys_of_a_ret_word : (Instr.sys 0xFEE).wellFormed = false := by decide
theorem test_wf_nop_of_a_family_6_word : (Instr.nop 0x6005).wellFormed = false := by decide
theorem test_wf_nop_of_a_family_8_word : (Instr.nop 0x812E).wellFormed = false := by decide
theorem test_wf_nop_of_a_family_E_word : (Instr.nop 0xE39E).wellFormed = false := by decide
theorem test_wf_nop_of_a_family_F_word : (Instr.nop 0xF333).wellFormed = false := by decide
theorem test_wf_sys_and_nop : (Instr.sys 0x0E1).wellFormed = true ∧ (Instr.nop 0xF3FF).wellFormed = true := by decide

/-! ## Decoding: a word for each row of R59, its fields by R50 -/

theorem test_decode_sys : decodeWord 0b0000_0001_0010_0011 = .sys 0x123 := by decide
theorem test_decode_cls : decodeWord 0b0000_0000_1110_0000 = .cls := by decide
theorem test_decode_ret : decodeWord 0b0000_0000_1110_1110 = .ret := by decide
theorem test_decode_jp : decodeWord 0b0001_0010_0011_0100 = .jp 0x234 := by decide
theorem test_decode_call : decodeWord 0b0010_0011_0000_0000 = .call 0x300 := by decide
theorem test_decode_seVxKk : decodeWord 0b0011_0011_0100_0010 = .seVxKk 0x3 0x42 := by decide
theorem test_decode_sneVxKk : decodeWord 0b0100_0011_0100_0010 = .sneVxKk 0x3 0x42 := by decide
theorem test_decode_seVxVy : decodeWord 0b0101_0001_0010_0001 = .seVxVy 0x1 0x2 := by decide
theorem test_decode_ldVxKk : decodeWord 0b0110_1010_0101_1100 = .ldVxKk 0xA 0x5C := by decide
theorem test_decode_addVxKk : decodeWord 0b0111_1111_0000_0101 = .addVxKk 0xF 0x05 := by decide
theorem test_decode_ldVxVy : decodeWord 0b1000_0001_0010_0000 = .ldVxVy 0x1 0x2 := by decide
theorem test_decode_orVxVy : decodeWord 0b1000_1111_0010_0001 = .orVxVy 0xF 0x2 := by decide
theorem test_decode_andVxVy : decodeWord 0b1000_0001_0010_0010 = .andVxVy 0x1 0x2 := by decide
theorem test_decode_xorVxVy : decodeWord 0b1000_0001_0010_0011 = .xorVxVy 0x1 0x2 := by decide
theorem test_decode_addVxVy : decodeWord 0b1000_0001_1111_0100 = .addVxVy 0x1 0xF := by decide
theorem test_decode_subVxVy : decodeWord 0b1000_0010_0011_0101 = .subVxVy 0x2 0x3 := by decide
theorem test_decode_shrVx : decodeWord 0b1000_0011_0100_0110 = .shrVx 0x3 := by decide
theorem test_decode_subnVxVy : decodeWord 0b1000_0000_0001_0111 = .subnVxVy 0x0 0x1 := by decide
theorem test_decode_shlVx : decodeWord 0b1000_0010_0101_1110 = .shlVx 0x2 := by decide
theorem test_decode_sneVxVy : decodeWord 0b1001_0001_0010_1111 = .sneVxVy 0x1 0x2 := by decide
theorem test_decode_ldIAddr : decodeWord 0b1010_0011_0000_0000 = .ldIAddr 0x300 := by decide
theorem test_decode_jpV0 : decodeWord 0b1011_1111_1111_1111 = .jpV0 0xFFF := by decide
theorem test_decode_rnd : decodeWord 0b1100_0011_0000_1111 = .rnd 0x3 0x0F := by decide
theorem test_decode_drw : decodeWord 0b1101_1010_1011_0010 = .drw 0xA 0xB 0x2 := by decide
theorem test_decode_skp : decodeWord 0b1110_0001_1001_1110 = .skp 0x1 := by decide
theorem test_decode_sknp : decodeWord 0b1110_0001_1010_0001 = .sknp 0x1 := by decide
theorem test_decode_ldVxDt : decodeWord 0b1111_0101_0000_0111 = .ldVxDt 0x5 := by decide
theorem test_decode_ldVxK : decodeWord 0b1111_0101_0000_1010 = .ldVxK 0x5 := by decide
theorem test_decode_ldDtVx : decodeWord 0b1111_0101_0001_0101 = .ldDtVx 0x5 := by decide
theorem test_decode_ldStVx : decodeWord 0b1111_0010_0001_1000 = .ldStVx 0x2 := by decide
theorem test_decode_addIVx : decodeWord 0b1111_0010_0001_1110 = .addIVx 0x2 := by decide
theorem test_decode_ldFVx : decodeWord 0b1111_0100_0010_1001 = .ldFVx 0x4 := by decide
theorem test_decode_ldBVx : decodeWord 0b1111_0000_0011_0011 = .ldBVx 0x0 := by decide
theorem test_decode_ldMemVx : decodeWord 0b1111_0011_0101_0101 = .ldMemVx 0x3 := by decide
theorem test_decode_ldVxMem : decodeWord 0b1111_0010_0110_0101 = .ldVxMem 0x2 := by decide
theorem test_decode_holes :
    decodeWord 0x8128 = .nop 0x8128 ∧ decodeWord 0xE1FF = .nop 0xE1FF ∧ decodeWord 0xF1FF = .nop 0xF1FF := by decide
/-- Byte order (R32), and a sequence too short to hold a word (R49). -/
theorem test_decode_bytes :
    decode [0x60, 0x05, 0x70] = .ok (.ldVxKk 0x0 0x05, [0x70]) ∧ decode [0x60] = .error .truncated ∧
    decodeTableWord 16 0x6005 = some (.ldVxKk 0x0 0x05) := by decide

/-! ## One step of each instruction, the word placed at `PC` -/

/-- What `f` reads of the state after one step over `w`. -/
def after {α : Type} (w : Word) (s : State) (f : State → α) : Option α :=
  match step (s.withFetchWord 16 w.toNat) with
  | .next t => some (f t)
  | .fault _ => none
  | .refused _ => none

/-- What `f` reads of the state after a run over a host schedule. -/
def afterAll {α : Type} (rs : List Request) (s : State) (f : State → α) : Option α :=
  match core.run rs.length ({ s with inbox := rs } : State) with
  | .next t => some (f t)
  | .fault _ => none
  | .refused _ => none

/-- The reset state with some registers set. -/
def regs (rs : List (Nibble × Byte)) : State := rs.foldl (fun s p => s.setReg p.1 p.2) State.reset

/-- The state with a byte stored. -/
def poke (s : State) (a : Nat) (bs : List Byte) : State := s.storeBytes a bs

/-- The state with a pixel flipped. -/
def dot (s : State) (r c : Nat) : State := s.setDisplay (s.display.flip r c)

/-- The state with one key of the live latch down. -/
def down (s : State) (k : Fin 16) : State := s.setKey k true

/-- The number of pixels that are 1. -/
def lit (s : State) : Nat := (s.display.map (List.count true)).sum

/-- The cause code, the recorded address and the out-of-range address (R117, R130). -/
def record (s : State) : Nat × Nat × Nat := (s.fault.code, s.faultPc.toNat, s.faultAddr)

/-- T1. -/
theorem test_sys_0000 : after 0x0000 State.reset (·.pc) = some 0x202 := by decide
/-- T24. -/
theorem test_sys_0123 : after 0x0123 (regs [(0xF, 7)]) (fun t => (t.pc, t.reg 0xF, t.sp)) = some (0x202, 7, 0) := by decide
/-- T4. -/
theorem test_nop_8128 :
    after 0x8128 (regs [(1, 5), (2, 9), (0xF, 7)]) (fun t => (t.reg 1, t.reg 0xF, t.pc)) = some (5, 7, 0x202) := by decide
/-- T6. -/
theorem test_nop_F1FF : after 0xF1FF State.reset (fun t => (t.pc, t.i)) = some (0x202, 0) := by decide
/-- T80. -/
theorem test_cls_clears : after 0x00E0 (dot (dot State.reset 5 5) 31 63) (fun t => (lit t, t.pc)) = some (0, 0x202) := by decide
/-- T3. -/
theorem test_cls_0EE0 : after 0x0EE0 (dot State.reset 0 0) (fun t => (lit t, t.pc)) = some (0, 0x202) := by decide
/-- T13. -/
theorem test_ret_pops :
    after 0x00EE { State.reset with sp := 1, stack := State.reset.stack.set 0 0x206, pc := 0x212 } (fun t => (t.sp, t.pc))
      = some (0, 0x206) := by decide
/-- T14. -/
theorem test_ret_underflow : after 0x00EE State.reset (fun t => (record t, t.pc)) = some ((2, 0x200, 0), 0x200) := by decide
/-- T10. -/
theorem test_jp_1234 : after 0x1234 State.reset (·.pc) = some 0x234 := by decide
/-- T11. -/
theorem test_call_pushes : after 0x2300 State.reset (fun t => (t.stack[0], t.sp, t.pc)) = some (0x202, 1, 0x300) := by decide
/-- T12. -/
theorem test_call_overflow :
    after 0x2300 { State.reset with sp := 16 } (fun t => (record t, t.pc, t.sp)) = some ((1, 0x200, 0), 0x200, 16) := by decide
/-- T15. -/
theorem test_se_kk_taken : after 0x3342 (regs [(3, 0x42)]) (·.pc) = some 0x204 := by decide
/-- T16. -/
theorem test_se_kk_not_taken : after 0x3342 (regs [(3, 0x41)]) (·.pc) = some 0x202 := by decide
/-- T17. -/
theorem test_sne_kk_taken : after 0x4342 (regs [(3, 0x41)]) (·.pc) = some 0x204 := by decide
/-- T18. -/
theorem test_sne_kk_not_taken : after 0x4342 (regs [(3, 0x42)]) (·.pc) = some 0x202 := by decide
/-- T7. -/
theorem test_se_vy_taken : after 0x5121 (regs [(1, 7), (2, 7)]) (·.pc) = some 0x204 := by decide
/-- T19. -/
theorem test_se_vy_not_taken : after 0x5120 (regs [(1, 7), (2, 8)]) (·.pc) = some 0x202 := by decide
/-- T20. -/
theorem test_sne_vy_taken : after 0x9120 (regs [(1, 7), (2, 8)]) (·.pc) = some 0x204 := by decide
/-- T21. -/
theorem test_sne_vy_not_taken : after 0x944F (regs [(4, 3)]) (·.pc) = some 0x202 := by decide
/-- T22. -/
theorem test_jp_v0 : after 0xB300 (regs [(0, 0x10), (3, 0x77)]) (·.pc) = some 0x310 := by decide
/-- T23. -/
theorem test_jp_v0_top : after 0xBFFF (regs [(0, 0xFF)]) (·.pc) = some 0x10FE := by decide
/-- T30. -/
theorem test_ld_kk : after 0x6A5C State.reset (fun t => (t.reg 0xA, t.pc)) = some (0x5C, 0x202) := by decide
/-- T31. -/
theorem test_add_kk_wraps : after 0x7001 (regs [(0, 0xFF), (0xF, 9)]) (fun t => (t.reg 0, t.reg 0xF)) = some (0, 9) := by decide
/-- T32. -/
theorem test_add_kk_to_vf : after 0x7F05 (regs [(0xF, 0x10)]) (·.reg 0xF) = some 0x15 := by decide
/-- T33. -/
theorem test_ld_vy : after 0x8120 (regs [(2, 0x33)]) (fun t => (t.reg 1, t.reg 2)) = some (0x33, 0x33) := by decide
/-- T34. -/
theorem test_or : after 0x8121 (regs [(1, 0x0F), (2, 0xF0), (0xF, 1)]) (fun t => (t.reg 1, t.reg 0xF)) = some (0xFF, 0) := by decide
/-- T35. -/
theorem test_or_into_vf : after 0x8F21 (regs [(0xF, 0x0F), (2, 0xF0)]) (·.reg 0xF) = some 0xFF := by decide
/-- T36. -/
theorem test_and : after 0x8122 (regs [(1, 0x3C), (2, 0x0F), (0xF, 1)]) (fun t => (t.reg 1, t.reg 0xF)) = some (0x0C, 0) := by decide
/-- T37. -/
theorem test_xor_self : after 0x8113 (regs [(1, 0xAA)]) (fun t => (t.reg 1, t.reg 0xF)) = some (0, 0) := by decide
/-- R83's example. -/
theorem test_xor : after 0x8123 (regs [(1, 0xFF), (2, 0x0F), (0xF, 1)]) (fun t => (t.reg 1, t.reg 0xF)) = some (0xF0, 0) := by decide
/-- T38. -/
theorem test_add_carry : after 0x8014 (regs [(0, 250), (1, 10)]) (fun t => (t.reg 0, t.reg 0xF)) = some (4, 1) := by decide
/-- T42. -/
theorem test_add_reads_old_vf : after 0x81F4 (regs [(1, 5), (0xF, 1)]) (fun t => (t.reg 1, t.reg 0xF)) = some (6, 0) := by decide
/-- T43. -/
theorem test_sub_borrow : after 0x8235 (regs [(2, 5), (3, 7)]) (fun t => (t.reg 2, t.reg 0xF)) = some (0xFE, 0) := by decide
/-- T44. -/
theorem test_sub_equal : after 0x8235 (regs [(2, 7), (3, 7)]) (fun t => (t.reg 2, t.reg 0xF)) = some (0, 1) := by decide
/-- T47. -/
theorem test_shr :
    after 0x8346 (regs [(3, 7), (4, 0x80)]) (fun t => (t.reg 3, t.reg 4, t.reg 0xF)) = some (3, 0x80, 1) := by decide
/-- T49. -/
theorem test_shr_of_vf : after 0x8F06 (regs [(0xF, 3)]) (·.reg 0xF) = some 1 := by decide
/-- T50. -/
theorem test_subn : after 0x8017 (regs [(0, 3), (1, 10)]) (fun t => (t.reg 0, t.reg 0xF)) = some (7, 1) := by decide
/-- T51. -/
theorem test_subn_borrow : after 0x8017 (regs [(0, 1), (1, 0)]) (fun t => (t.reg 0, t.reg 0xF)) = some (0xFF, 0) := by decide
/-- T53. -/
theorem test_shl : after 0x820E (regs [(2, 0xFE)]) (fun t => (t.reg 2, t.reg 0xF)) = some (0xFC, 1) := by decide
/-- T54. -/
theorem test_shl_ignores_vy :
    after 0x825E (regs [(2, 0x7F), (5, 0xFF)]) (fun t => (t.reg 2, t.reg 5, t.reg 0xF)) = some (0xFE, 0xFF, 0) := by decide
/-- T56, for the random byte of the vector. -/
theorem test_rnd_masks : (State.reset.rndWith 0xA7 3 0x0F).reg 3 = 0x07 := by decide
/-- T57: with a mask of 0 the byte does not matter. -/
theorem test_rnd_counts_a_draw : after 0xC300 (regs [(3, 0x55)]) (fun t => (t.pc, t.draws)) = some (0x202, 1) := by decide
/-- T60. -/
theorem test_ld_i : after 0xA300 State.reset (·.i) = some 0x300 := by decide
/-- T61. -/
theorem test_add_i :
    after 0xF21E ((regs [(2, 0x20), (0xF, 5)]).setI 0x300) (fun t => (t.i, t.reg 0xF)) = some (0x320, 5) := by decide
/-- T62. -/
theorem test_add_i_wraps : after 0xF21E ((regs [(2, 1)]).setI 0xFFFF) (·.i) = some 0 := by decide
/-- T64. -/
theorem test_ld_f : after 0xF429 (regs [(4, 7)]) (·.i) = some 0x023 := by decide
/-- T65. -/
theorem test_ld_f_low_nibble : after 0xF429 (regs [(4, 0x1A)]) (·.i) = some 0x032 := by decide
/-- T66. -/
theorem test_ld_b :
    after 0xF033 ((regs [(0, 123)]).setI 0x300) (fun t => (t.readByte 0x300, t.readByte 0x301, t.readByte 0x302, t.i))
      = some (1, 2, 3, 0x300) := by decide
/-- T70. -/
theorem test_ld_b_fault :
    after 0xF033 (poke ((regs [(0, 7)]).setI 0xFFE) 0xFFE [9]) (fun t => (record t, t.readByte 0xFFE, t.pc))
      = some ((3, 0x200, 0x1000), 9, 0x200) := by decide
/-- T71. -/
theorem test_ld_mem :
    after 0xF355 ((regs [(1, 1), (2, 0xFC), (3, 3)]).setI 0x400)
      (fun t => (t.readByte 0x400, t.readByte 0x401, t.readByte 0x402, t.readByte 0x403, t.i))
      = some (0, 1, 0xFC, 3, 0x404) := by decide
/-- T75. -/
theorem test_ld_mem_fault :
    after 0xF055 (State.reset.setI 0x1005) (fun t => (record t, t.i, t.pc)) = some ((3, 0x200, 0x1005), 0x1005, 0x200) := by decide
/-- T76. -/
theorem test_ld_vx_mem :
    after 0xF265 (poke ((regs [(3, 9)]).setI 0x300) 0x300 [1, 2, 3, 4]) (fun t => (t.reg 0, t.reg 1, t.reg 2, t.reg 3, t.i))
      = some (1, 2, 3, 9, 0x303) := by decide
/-- T78: the default font (log entry 3). -/
theorem test_ld_vx_mem_font :
    after 0xF465 State.reset (fun t => (t.reg 0, t.reg 1, t.reg 2, t.reg 3, t.reg 4, t.i))
      = some (0xF0, 0x90, 0x90, 0x90, 0xF0, 0x005) := by decide
/-- T81. -/
theorem test_drw_wraps :
    after 0xDAB2 (poke ((regs [(0xA, 60), (0xB, 31)]).setI 0x210) 0x210 [0x81, 0xFF])
      (fun t => ([(31, 60), (31, 3), (0, 60), (0, 63), (0, 0), (0, 3), (31, 61), (0, 4)].map
        fun p => t.display.pixel p.1 p.2, t.reg 0xF, lit t))
      = some ([true, true, true, true, true, true, false, false], 0, 10) := by decide
/-- T82. -/
theorem test_drw_collides :
    after 0xD001 (dot (poke (State.reset.setI 0x210) 0x210 [0xC0]) 0 1)
      (fun t => (t.display.pixel 0 0, t.display.pixel 0 1, t.reg 0xF)) = some (true, false, 1) := by decide
/-- T90. -/
theorem test_ld_vx_dt : after 0xF507 (State.reset.setDt 0x3C) (fun t => (t.reg 5, t.dt)) = some (0x3C, 0x3C) := by decide
/-- T91. -/
theorem test_ld_dt_vx : after 0xF515 (regs [(5, 0x3C)]) (fun t => (t.dt, t.st)) = some (0x3C, 0) := by decide
/-- T92. -/
theorem test_ld_st_vx : after 0xF218 (regs [(2, 4)]) (fun t => (t.st, t.dt, t.soundActive)) = some (4, 0, true) := by decide
/-- T95. -/
theorem test_skp_up : after 0xE19E (regs [(1, 7)]) (·.pc) = some 0x202 := by decide
/-- T96. -/
theorem test_skp_down : after 0xE19E (down (regs [(1, 0x17)]) 7) (·.pc) = some 0x204 := by decide
/-- T97. -/
theorem test_sknp_up : after 0xE1A1 (regs [(1, 7)]) (·.pc) = some 0x204 := by decide
/-- T98. -/
theorem test_sknp_down : after 0xE1A1 (down (regs [(1, 7)]) 7) (·.pc) = some 0x202 := by decide
/-- T100. -/
theorem test_ld_k_detects_the_lowest :
    after 0xF50A (down (down { State.reset with kw := .awaitingPress } 2) 9) (fun t => (t.kw, t.kdet, t.pc))
      = some (.awaitingRelease, 2, 0x200) := by decide
/-- T103. -/
theorem test_ld_k_completes :
    after 0xFF0A { State.reset with kw := .awaitingRelease, kdet := 0xC } (fun t => (t.reg 0xF, t.kw, t.pc))
      = some (0x0C, .idle, 0x202) := by decide

/-! ## Fetch and the host's transactions -/

/-- H1. -/
theorem test_fetch_fault :
    afterAll [.cycle] { State.reset with pc := 0xFFF } (fun t => (record t, t.pc)) = some ((3, 0xFFF, 0x1000), 0xFFF) := by decide
/-- H2. -/
theorem test_fetch_at_the_top :
    after 0x6042 { State.reset with pc := 0xFFE } (fun t => (t.reg 0, t.pc, t.fault)) = some (0x42, 0x1000, .none) := by decide
/-- H4. -/
theorem test_fetch_odd : after 0x6123 { State.reset with pc := 0x201 } (fun t => (t.reg 1, t.pc)) = some (0x23, 0x203) := by decide
/-- H5. -/
theorem test_faulted_block :
    afterAll [.cycle, .tick, .setKey 1 true]
      { State.reset with fault := .stackOverflow, faultPc := 0x300, pc := 0x300, dt := 2 }
      (fun t => (t.dt, t.keys[1], record t, t.pc)) = some (1, true, (1, 0x300, 0), 0x300) := by decide
/-- H6. -/
theorem test_tick_saturates :
    afterAll [.tick, .tick] { State.reset with dt := 5, st := 1 } (fun t => (t.dt, t.st, t.soundActive))
      = some (3, 0, false) := by decide
/-- H8. -/
theorem test_set_key :
    afterAll [.setKey 3 true] { State.reset with kw := .awaitingPress } (fun t => (t.keys[3], t.snap[3], t.kw, t.kdet))
      = some (true, false, .awaitingPress, 0) := by decide
/-- R116: no legal call. -/
theorem test_set_key_16 : perform (.setKey 16 true) State.reset = .refused (.keyIndexOutOfRange 16) := rfl
/-- H11, its first Load. -/
theorem test_load_at_the_top :
    afterAll [.load [0x09] (some 0xFFF)] State.reset (fun t => (t.reply, t.readByte 0xFFF, t.pc))
      = some (some .ok, 0x09, 0x200) := by decide
/-- H11, its second Load. -/
theorem test_load_error :
    afterAll [.load [0x09, 0x09] (some 0xFFF)] State.reset (fun t => (t.reply, t.readByte 0xFFF, t.fault))
      = some (some .loadError, 0, .none) := by decide
/-- H12. -/
theorem test_load_nothing : afterAll [.load [] none] State.reset (fun t => (t.reply, t.mem)) = some (some .ok, []) := by decide
/-- H13. -/
theorem test_reset_of_a_faulted_block :
    afterAll [.reset] (poke { State.reset with fault := .addressFault, faultPc := 0xFFF, faultAddr := 0x1000, pc := 0xFFF } 0 [1])
      (fun t => (record t, t.pc, t.readByte 0, t.mem)) = some ((0, 0, 0), 0x200, 0xF0, []) := by decide
/-- The boot sequence of R143 with the bytes of the source's scenario S9. -/
theorem test_boot :
    afterAll [.reset, .load [0x60, 0x05, 0x70, 0x02] none, .cycle, .cycle] State.reset (fun t => (t.reg 0, t.reg 0xF, t.pc))
      = some (7, 0, 0x204) := by decide
/-- An empty inbox is a Cycle: the reset memory at 0x200 is the word 0x0000, a no-op (R66). -/
theorem test_step_from_reset : (match step State.reset with | .next t => t.pc | _ => 0) = 0x202 := by decide

/-! ## Witnesses: a concrete input that meets the hypotheses of each statement that has some -/

/-- A word placed at `pc` for the next fetch. -/
def placed (w : Word) (s : State) : State := s.withFetchWord 16 w.toNat

/-- A state in use: a byte stored, a pixel lit, a return address on the stack. -/
def busy : State := dot (poke { State.reset with sp := 1, stack := State.reset.stack.set 0 0x206 } 0x300 [7]) 3 4

/-- A faulted state with a request behind the Cycle. -/
def stuck : State :=
  { State.reset with fault := .addressFault, faultPc := 0xFFF, faultAddr := 0x1000, pc := 0xFFF, inbox := [.cycle, .reset] }

theorem witness_ResetMeetsTheInvariant : ({ Config.default with width := 7, height := 1 } : Config).Ok := by decide

theorem witness_StepKeepsTheInvariant : busy.Inv ∧ ∃ t, step busy = .next t :=
  ⟨⟨by decide, by decide, by decide, ⟨by decide, by decide, by decide, by decide⟩, by unfold State.StackOk; decide⟩, _, rfl⟩

theorem witness_StepKeepsTheInvariant_faulted :
    stuck.Inv ∧ stuck.fault ≠ .none ∧ ∃ t, step stuck = .next t :=
  ⟨⟨by decide, by decide, by decide, ⟨by decide, by decide, by decide, by decide⟩, by unfold State.StackOk; decide⟩, by decide,
    _, rfl⟩

theorem witness_EncodeThenDecode :
    (Instr.sys 0xFFF).wellFormed = true ∧ (Instr.nop 0xFF66).wellFormed = true ∧ (Instr.drw 0xF 0xF 0xF).wellFormed = true := by
  decide

theorem witness_EachWordHasOneRow :
    (Instr.cls).row = some ⟨0xF0FF, 0x00E0⟩ ∧ (⟨0xF0FF, 0x00E0⟩ : Row).takes 0x0FE0 = true ∧
    (⟨0xF000, 0x0000⟩ : Row).takes 0x0FE0 = false ∧ isHole 0xF066 = true ∧ isHole 0xF065 = false := by decide

theorem witness_StepRunsTheDecodedInstruction :
    (placed 0x6042 { State.reset with pc := 0xFFE }).CycleNext ∧ (placed 0x6042 { State.reset with pc := 0xFFE }).Safe ∧
    (placed 0x6042 { State.reset with pc := 0xFFE }).FetchOk := by
  refine ⟨.inl ?_, ?_, ?_⟩ <;> decide

theorem witness_StepRunsTheDecodedInstruction_asked :
    ({ State.reset with inbox := [.cycle, .tick] } : State).CycleNext ∧
    ({ State.reset with inbox := [.cycle, .tick] } : State).Safe ∧
    ({ State.reset with inbox := [.cycle, .tick] } : State).FetchOk := ⟨.inr ⟨_, rfl⟩, by decide, by decide⟩

theorem witness_StepPerformsTheNextRequest : ({ State.reset with inbox := [.tick, .cycle] } : State).inbox = .tick :: [.cycle] := rfl

theorem witness_FetchReadsBigEndianOrFaults :
    ({ State.reset with pc := 0xFFF } : State).CycleNext ∧ ({ State.reset with pc := 0xFFF } : State).Safe ∧
    0xFFF < ({ State.reset with pc := 0xFFF } : State).pc.toNat + 1 := ⟨.inl rfl, by decide, by decide⟩

theorem witness_FetchReadsBigEndianOrFaults_above :
    ({ State.reset with pc := 0xFFFF } : State).CycleNext ∧ ({ State.reset with pc := 0xFFFF } : State).Safe ∧
    0xFFF < ({ State.reset with pc := 0xFFFF } : State).pc.toNat + 1 := ⟨.inl rfl, by decide, by decide⟩

theorem witness_FaultedCycleChangesNothing : stuck.CycleNext ∧ stuck.fault ≠ .none := ⟨.inr ⟨_, rfl⟩, by decide⟩

theorem witness_FaultsArePrecise :
    (placed 0x00EE State.reset).CycleNext ∧ (placed 0x00EE State.reset).Safe ∧
    ∃ t, step (placed 0x00EE State.reset) = .next t ∧ t.fault ≠ .none := ⟨.inl rfl, by decide, _, rfl, by decide⟩

theorem witness_FaultsArePrecise_address :
    (placed 0xF033 (State.reset.setI 0xFFE)).CycleNext ∧ (placed 0xF033 (State.reset.setI 0xFFE)).Safe ∧
    ∃ t, step (placed 0xF033 (State.reset.setI 0xFFE)) = .next t ∧ t.fault = .addressFault := ⟨.inl rfl, by decide, _, rfl, by decide⟩

/-- The conditions of R117 at both sides of each bound. -/
theorem witness_InstructionsFaultExactlyWhenTheirConditionHolds :
    State.reset.Safe ∧
    ({ State.reset with sp := 16 } : State).causeOf (.call 0) = .stackOverflow ∧
    ({ State.reset with sp := 15 } : State).causeOf (.call 0) = .none ∧
    State.reset.causeOf .ret = .stackUnderflow ∧ ({ State.reset with sp := 1 } : State).causeOf .ret = .none ∧
    (State.reset.setI 0xFFF).causeOf (.drw 0 0 2) = .addressFault ∧ (State.reset.setI 0xFFF).causeOf (.drw 0 0 1) = .none ∧
    (State.reset.setI 0xFFFF).causeOf (.drw 0 0 0) = .none ∧
    (State.reset.setI 0xFFE).causeOf (.ldBVx 0) = .addressFault ∧ (State.reset.setI 0xFFD).causeOf (.ldBVx 0) = .none ∧
    (State.reset.setI 0xFF1).causeOf (.ldMemVx 0xF) = .addressFault ∧ (State.reset.setI 0xFF0).causeOf (.ldMemVx 0xF) = .none ∧
    (State.reset.setI 0x1000).causeOf (.ldVxMem 0) = .addressFault ∧ (State.reset.setI 0xFFF).causeOf (.ldVxMem 0) = .none := by
  decide

theorem witness_SnapshotIsTakenAtTheStartOfACycle :
    (down State.reset 3).CycleNext ∧ (down State.reset 3).Safe ∧ (down State.reset 3).keys ≠ (down State.reset 3).snap ∧
    ∃ t, step (down State.reset 3) = .next t := ⟨.inl rfl, by decide, by decide, _, rfl⟩

theorem witness_SnapshotIsTakenAtTheStartOfACycle_waiting :
    ({ down State.reset 3 with kw := .awaitingPress } : State).CycleNext ∧
    ({ down State.reset 3 with kw := .awaitingPress } : State).Safe ∧
    ∃ t, step ({ down State.reset 3 with kw := .awaitingPress } : State) = .next t := ⟨.inl rfl, by decide, _, rfl⟩

theorem witness_NoOpsChangeNothing : isSysAddr 0x0E1 = true ∧ isSysAddr 0x0EF = true ∧ isHole 0x8018 = true := by decide

theorem witness_UnmatchedWordsOnlyAdvance :
    (placed 0x00E1 State.reset).CycleNext ∧ (placed 0x00E1 State.reset).Safe ∧ (placed 0x00E1 State.reset).FetchOk ∧
    decodeWord ((placed 0x00E1 State.reset).wordAt (placed 0x00E1 State.reset).pc.toNat) = .sys 0x0E1 :=
  ⟨.inl rfl, by decide, by decide, by decide⟩

theorem witness_UnmatchedWordsOnlyAdvance_hole :
    (placed 0x8018 State.reset).CycleNext ∧ (placed 0x8018 State.reset).Safe ∧ (placed 0x8018 State.reset).FetchOk ∧
    isHole ((placed 0x8018 State.reset).wordAt (placed 0x8018 State.reset).pc.toNat) = true :=
  ⟨.inl rfl, by decide, by decide, by decide⟩

theorem witness_RetPopsOrFaults :
    busy.sp.val = (0 : Fin 16).val + 1 ∧ ({ busy with sp := 16 } : State).sp.val = (15 : Fin 16).val + 1 ∧
    State.reset.sp = 0 := by decide

theorem witness_CallPushesOrFaults :
    State.reset.sp.val = (0 : Fin 16).val ∧ ({ busy with sp := 15 } : State).sp.val = (15 : Fin 16).val ∧
    ({ busy with sp := 16 } : State).sp.val = 16 := by decide

theorem witness_ReturnUndoesCall :
    ({ busy with sp := 15 } : State).sp.val < 16 ∧
    ∃ t, exec (.call 0x300) ({ busy with sp := 15 } : State) = .next t ∧ t.sp = 16 ∧
      ({ t with pc := 0x310 } : State).sp = t.sp ∧
      ∀ k : Fin 16, k.val < t.sp.val → ({ t with pc := 0x310 } : State).stack[k] = t.stack[k] :=
  ⟨by decide, _, rfl, by decide, rfl, fun _ _ => rfl⟩

theorem witness_LogicClearsVfThenWritesTheResult (x y : Nibble) :
    ∀ p ∈ ([(.orVxVy x y, or), (.andVxVy x y, and), (.xorVxVy x y, xor)] : List (Instr × (Bool → Bool → Bool))),
      (p.1 = .orVxVy x y ∧ p.2 = or) ∨ (p.1 = .andVxVy x y ∧ p.2 = and) ∨ (p.1 = .xorVxVy x y ∧ p.2 = xor) := by
  simp

/-- A data range one byte too long, for each instruction that has one. -/
theorem witness_DataRangesOutsideMemoryFault :
    ((0xF : Nibble).toNat = 14 + 1 ∧ 0xFFF < (State.reset.setI 0xFF2).i.toNat + 14) ∧
    0xFFF < (State.reset.setI 0xFFE).i.toNat + 2 ∧
    (15 = (0xF : Nibble).toNat ∧ 0xFFF < (State.reset.setI 0xFF1).i.toNat + 15) ∧
    (0 = (0x0 : Nibble).toNat ∧ 0xFFF < (State.reset.setI 0x1000).i.toNat + 0) := by decide

theorem witness_BcdStoresThreeDigits :
    (State.reset.setI 0xFFD).i.toNat + 2 ≤ 0xFFF ∧ 0xFFF < (State.reset.setI 0xFFE).i.toNat + 2 := by decide

theorem witness_BulkStoreStoresAndAdvances :
    (State.reset.setI 0xFF0).i.toNat + (0xF : Nibble).toNat ≤ 0xFFF ∧
    0xFFF < (State.reset.setI 0xFF1).i.toNat + (0xF : Nibble).toNat := by decide

theorem witness_BulkLoadLoadsAndAdvances :
    (State.reset.setI 0xFFF).i.toNat + (0x0 : Nibble).toNat ≤ 0xFFF ∧
    0xFFF < (State.reset.setI 0x1000).i.toNat + (0x0 : Nibble).toNat := by decide

theorem witness_BulkLoadRestoresABulkStore : (State.reset.setI 0xFFE).i.toNat + (0x1 : Nibble).toNat ≤ 0xFFF := by decide

theorem witness_StoredBytesAreTheNextWord :
    (State.reset.setI 0xFFE).i.toNat + (0x1 : Nibble).toNat ≤ 0xFFF ∧ (0x1 : Nibble).toNat ≤ (0x1 : Nibble).toNat ∧
    (0x1 : Nibble).toNat = (0x0 : Nibble).toNat + 1 := by decide

/-- The two draws: a sprite that reaches 0xFFF, and an empty one at an `I` outside memory. -/
theorem witness_DrawXorsTheSpriteIntoTheDisplay :
    (busy.setI 0xFF1).cfg.Ok ∧ gridShape (busy.setI 0xFF1).cfg (busy.setI 0xFF1).display ∧
    ((0xF : Nibble) = 0 ∨ (busy.setI 0xFF1).i.toNat + (0xF : Nibble).toNat ≤ 0x1000) ∧
    ((0x0 : Nibble) = 0 ∨ (busy.setI 0xFFFF).i.toNat + (0x0 : Nibble).toNat ≤ 0x1000) := by decide

/-- On a display narrower than a sprite two bits land on one pixel, and VF is set on a clear display (R104). -/
theorem witness_DrawSetsTheCollisionFlag :
    ({ Config.default with width := 7, height := 1 } : Config).Ok ∧
    gridShape { Config.default with width := 7, height := 1 }
      (State.resetWith { Config.default with width := 7, height := 1 }).display ∧
    ((0x1 : Nibble) = 0 ∨ (State.resetWith { Config.default with width := 7, height := 1 }).i.toNat + (0x1 : Nibble).toNat ≤ 0x1000) ∧
    after 0xD001 (poke (State.resetWith { Config.default with width := 7, height := 1 }) 0 [0xFF])
      (fun t => (t.display.pixel 0 0, t.display.pixel 0 1, t.reg 0xF)) = some (false, true, 1) := by decide

theorem witness_DrawingTwiceRestoresTheDisplay :
    (0x0 : Nibble) ≠ vf ∧ (0x1 : Nibble) ≠ vf ∧ ((0x5 : Nibble) = 0 ∨ busy.i.toNat + (0x5 : Nibble).toNat ≤ 0x1000) := by decide

theorem witness_SecondDrawCollidesWhereTheDisplayWasClear :
    (0x0 : Nibble) ≠ vf ∧ (0x1 : Nibble) ≠ vf ∧ ((0x5 : Nibble) = 0 ∨ busy.i.toNat + (0x5 : Nibble).toNat ≤ 0x1000) ∧
    gridShape busy.cfg busy.display ∧ 8 ≤ busy.cfg.width ∧ (0x5 : Nibble).toNat ≤ busy.cfg.height ∧ 1 ≤ busy.cfg.height := by
  decide

theorem witness_SecondDrawCollidesWheneverTheSpriteHasABit :
    (0x0 : Nibble) ≠ vf ∧
    ((0x1 : Nibble) = 0 ∨ (dot (poke (State.reset.setI 0x210) 0x210 [0x80]) 0 0).i.toNat + (0x1 : Nibble).toNat ≤ 0x1000) ∧
    gridShape (dot (poke (State.reset.setI 0x210) 0x210 [0x80]) 0 0).cfg
      (dot (poke (State.reset.setI 0x210) 0x210 [0x80]) 0 0).display ∧
    8 ≤ (dot (poke (State.reset.setI 0x210) 0x210 [0x80]) 0 0).cfg.width ∧
    (0x1 : Nibble).toNat ≤ (dot (poke (State.reset.setI 0x210) 0x210 [0x80]) 0 0).cfg.height ∧
    (dot (poke (State.reset.setI 0x210) 0x210 [0x80]) 0 0).spriteBit 0 0 = true := by decide

/-- The input on which R105's flag clause and R103 part: the one bit of the sprite lands on a pixel that was 1 before the first
draw, so the first draw collides, the second does not, and the display returns (log entry 9). -/
theorem test_second_draw_over_a_lit_pixel :
    after 0xD001 (dot (poke (State.reset.setI 0x210) 0x210 [0x80]) 0 0) (fun t => (t.display.pixel 0 0, t.reg 0xF))
      = some (false, 1) ∧
    after 0xD001 (poke (State.reset.setI 0x210) 0x210 [0x80]) (fun t => (t.display.pixel 0 0, t.reg 0xF)) = some (true, 0) := by
  decide

theorem witness_SkipsOnKeys : (7 : Fin 16).val = ((regs [(1, 0x17)]).reg 1).toNat % 16 := by decide

theorem witness_KeyWaitTransitions_detects :
    ({ down (down State.reset 2) 9 with kw := .awaitingPress } : State).kw = .awaitingPress ∧
    ({ down (down State.reset 2) 9 with kw := .awaitingPress } : State).LowestChanged 2 ∧
    (down (down State.reset 2) 9).kw = .idle ∧ (down (down State.reset 2) 9).LowestChanged 2 := by
  unfold State.LowestChanged; decide

theorem witness_KeyWaitTransitions_waits :
    State.reset.kw = .idle ∧ State.reset.keys = State.reset.snap ∧
    ({ State.reset with kw := .awaitingPress } : State).kw = .awaitingPress := by decide

theorem witness_KeyWaitTransitions_releases :
    ({ State.reset with kw := .awaitingRelease, kdet := 0xC } : State).kw = .awaitingRelease ∧
    ({ State.reset with kw := .awaitingRelease, kdet := 0xC } : State).keys[(0xC : Fin 16)] = false ∧
    ({ down State.reset 2 with kw := .awaitingRelease, kdet := 2 } : State).keys[(2 : Fin 16)] = true := by decide

theorem witness_FirstKeyWaitCycleDetectsNothing :
    (placed 0xF50A (down State.reset 3)).CycleNext ∧ (placed 0xF50A (down State.reset 3)).Safe ∧
    (placed 0xF50A (down State.reset 3)).FetchOk ∧
    decodeWord ((placed 0xF50A (down State.reset 3)).wordAt (placed 0xF50A (down State.reset 3)).pc.toNat) = .ldVxK 5 ∧
    (placed 0xF50A (down State.reset 3)).kw = .idle := ⟨.inl rfl, by decide, by decide, by decide, by decide⟩

/-- Each of the two waiting states, under one word at `PC`. -/
theorem witness_KeyWaitWithoutATransitionChangesNothing :
    ∀ s ∈ [placed 0xF50A { State.reset with kw := .awaitingPress },
        placed 0xF50A { down State.reset 2 with kw := .awaitingRelease, kdet := 2 }],
      s.inbox = [] ∧ s.Safe ∧ s.FetchOk ∧ decodeWord (s.wordAt s.pc.toNat) = .ldVxK 5 ∧
      ((s.kw = .awaitingPress ∧ s.keys = s.snap) ∨ (s.kw = .awaitingRelease ∧ s.keys[s.kdet] = true)) := by decide

theorem witness_PressThenReleaseEndsTheKeyWait :
    (placed 0xF50A State.reset).Safe ∧ (placed 0xF50A State.reset).FetchOk ∧
    decodeWord ((placed 0xF50A State.reset).wordAt (placed 0xF50A State.reset).pc.toNat) = .ldVxK 5 ∧
    (placed 0xF50A State.reset).kw = .idle ∧ ∀ j : Fin 16, (placed 0xF50A State.reset).keys[j] = false := by decide

theorem witness_SetKeyWritesOneKeyOrIsRefused : 15 < 16 ∧ ((15 : Fin 16).val = 15) := by decide

theorem witness_LoadCopiesTheImageOrReportsAnError :
    4095 + ([0x09] : List Byte).length ≤ 4096 ∧ 4096 < 4095 + ([0x09, 0x09] : List Byte).length ∧
    4096 + ([] : List Byte).length ≤ 4096 ∧ 4096 < 4097 + ([] : List Byte).length := by decide

/-- Each element changed by an instruction that may write it. -/
theorem witness_EachElementHasItsWriters :
    (∃ t, exec (.ldVxMem 0) (busy.setI 0x300) = .next t ∧ t.reg 0 ≠ (busy.setI 0x300).reg 0) ∧
    (∃ t, exec (.ldVxK 0) busy = .next t ∧ t.pc ≠ busy.pc) ∧
    (∃ t, exec (.ldVxMem 0) (busy.setI 0x1000) = .next t ∧ t.pc ≠ (busy.setI 0x1000).pc ∧
      t.fault ≠ (busy.setI 0x1000).fault ∧ t.faultPc ≠ (busy.setI 0x1000).faultPc ∧ t.faultAddr ≠ (busy.setI 0x1000).faultAddr) ∧
    (∃ t, exec (.ldIAddr 0x300) busy = .next t ∧ t.i ≠ busy.i) ∧
    (∃ t, exec (.call 0x300) busy = .next t ∧ t.stack ≠ busy.stack ∧ t.sp ≠ busy.sp) ∧
    (∃ t, exec (.ldDtVx 0) (busy.setReg 0 5) = .next t ∧ t.dt ≠ (busy.setReg 0 5).dt) ∧
    (∃ t, exec (.ldStVx 0) (busy.setReg 0 5) = .next t ∧ t.st ≠ (busy.setReg 0 5).st) ∧
    (∃ t, exec .cls busy = .next t ∧ t.display ≠ busy.display) ∧
    (∃ t, exec (.ldMemVx 0) (busy.setI 0x300) = .next t ∧ t.mem ≠ (busy.setI 0x300).mem) ∧
    (∃ t, exec (.ldVxK 0) busy = .next t ∧ t.kw ≠ busy.kw) ∧
    (∃ t, exec (.rnd 0 0) busy = .next t ∧ t.draws ≠ busy.draws) :=
  ⟨⟨_, rfl, by decide⟩, ⟨_, rfl, by decide⟩, ⟨_, rfl, by decide, by decide, by decide, by decide⟩, ⟨_, rfl, by decide⟩,
    ⟨_, rfl, by decide, by decide⟩, ⟨_, rfl, by decide⟩, ⟨_, rfl, by decide⟩, ⟨_, rfl, by decide⟩, ⟨_, rfl, by decide⟩,
    ⟨_, rfl, by decide⟩, ⟨_, rfl, by decide⟩⟩

theorem witness_NoInstructionReadsTheSoundTimer :
    (∃ t, exec (.ldVxDt 0) busy = .next t) ∧ ∃ t, exec (.ldStVx 0) busy = .next t := ⟨⟨_, rfl⟩, ⟨_, rfl⟩⟩

theorem witness_FlagProducersNeverReadTheOldFlag :
    (Instr.addVxVy 0 1).flagOperands = some [0, 1] ∧ vf ∉ ([0, 1] : List Nibble) ∧ busy.causeOf (.addVxVy 0 1) = .none ∧
    (Instr.drw 0 1 5).flagOperands = some [0, 1] ∧ busy.causeOf (.drw 0 1 5) = .none := by decide

theorem witness_PendingRequestsDoNotReachAnInstruction : ∃ t, exec (.ldVxK 0) busy = .next t := ⟨_, rfl⟩

theorem witness_OnlyResetClearsAFault :
    stuck.fault ≠ .none ∧ (∃ t, step stuck = .next t) ∧ stuck.popRequest.fault ≠ .none ∧
    ∃ t, step stuck.popRequest = .next t ∧ t.fault = .none := ⟨by decide, ⟨_, rfl⟩, by decide, _, rfl, by decide⟩

theorem witness_OnlyAnIllegalKeyIndexStopsAStep :
    step { State.reset with inbox := [.setKey 16 true] } = .refused (.keyIndexOutOfRange 16) := rfl

theorem witness_SelfJumpEndsARun :
    (placed 0x1200 State.reset).AtHalt ∧ (placed 0x1200 State.reset).CycleNext := ⟨by decide, .inl rfl⟩

/-- A jump to 0xFFE at 0xFFE, the highest address a run can end at. -/
theorem witness_SelfJumpEndsARun_top :
    (placed 0x1FFE { State.reset with pc := 0xFFE }).AtHalt ∧ (placed 0x1FFE { State.reset with pc := 0xFFE }).CycleNext :=
  ⟨by decide, .inl rfl⟩

end Sys2Proof.Tests
end

section
/-! SUPPORT. Every step keeps the invariant (O3): first what keeps it (an update of the fields it does not read, a fault
entry, a checked range, a draw, a push, a pop), then every instruction, the Cycle and the transactions. -/

namespace Sys2Proof.Machine

/-! ## What keeps the invariant -/

/-- The fields the invariant reads, but for `PC`, which it reads only while a fault is recorded. -/
def State.guarded (s : State) :
    Config × Memory × Grid × Vector Word 16 × Fin 17 × FaultCause × Word × Nat :=
  (s.cfg, s.mem, s.display, s.stack, s.sp, s.fault, s.faultPc, s.faultAddr)

/-- An update outside the guarded fields keeps the invariant; it may move `PC` when no fault is recorded. -/
theorem State.Inv.of_guarded_eq {s t : State} (h : s.Inv) (hpc : s.Safe ∨ t.pc = s.pc) (e : t.guarded = s.guarded) :
    t.Inv := by
  simp only [State.guarded, Prod.mk.injEq] at e
  obtain ⟨hcfg, hmem, hdisplay, hstack, hsp, hfault, hfaultPc, hfaultAddr⟩ := e
  obtain ⟨cfg, mem, display, ⟨clear, atFault, noAddr, addr⟩, stack⟩ := h
  refine ⟨hcfg ▸ cfg, ?_, ?_, ⟨?_, fun hf => ?_, ?_, ?_⟩, ?_⟩
  · rwa [hcfg, hmem]
  · rwa [hcfg, hdisplay]
  · rwa [hfault, hfaultPc, hfaultAddr]
  · rw [hfault] at hf
    rcases hpc with hsafe | hpc
    · exact absurd hsafe hf
    · rw [hpc, hfaultPc, atFault hf]
  · rwa [hfault, hfaultAddr]
  · rwa [hfault, hfaultAddr]
  · rwa [State.StackOk, hstack, hsp]

/-- Fault entry keeps the invariant: it writes the whole record and puts `PC` at the faulting address (R121). -/
theorem State.Inv.enterFault {s : State} (h : s.Inv) {cause : FaultCause} (p : Word) {addr : Nat} (hc : cause ≠ .none)
    (ha : cause = .addressFault → 0x1000 ≤ addr ∧ addr ≤ 0xFFFF) : (s.enterFault cause p addr).Inv where
  cfg := h.cfg
  mem := h.mem
  display := h.display
  record :=
    { clear := fun hn => absurd hn hc
      atFault := fun _ => rfl
      noAddr := fun hn => if_neg hn
      addr := fun hf => by simpa [show cause = .addressFault from hf] using ha hf }
  stack := h.stack

/-- An instruction with a data range keeps the invariant when its effect does, where the range lies in memory. -/
theorem State.Inv.withRange {s : State} (h : s.Inv) (base : Word) {count : Nat} {next : State}
    (hnext : count = 0 ∨ base.toNat + count ≤ 0x1000 → next.Inv) : (withRange s base.toNat count next).Inv := by
  rcases withRange_cases s base.toNat count next with ⟨hr, e⟩ | ⟨-, -, e⟩
  · rw [e]
    exact hnext hr
  · rw [e]
    exact h.enterFault _ (by decide) fun _ => by have := base.isLt; omega

/-- Stores inside memory keep the invariant. -/
theorem State.Inv.storeBytes {s : State} (h : s.Inv) (a : Nat) (bs : List Byte) (ha : a + bs.length ≤ 0x1000) :
    (s.storeBytes a bs).Inv where
  cfg := by simpa using h.cfg
  mem := by simpa using State.storeBytes_wf a bs h.mem (.inr ha)
  display := by simpa using h.display
  record := ⟨by simpa using h.record.clear, by simpa using h.record.atFault, by simpa using h.record.noAddr,
    by simpa using h.record.addr⟩
  stack := by simpa [State.StackOk] using h.stack

/-- A display of the right shape keeps the invariant. -/
theorem State.Inv.setDisplay {s : State} (h : s.Inv) {d : Grid} (hd : gridShape s.cfg d) : (s.setDisplay d).Inv where
  cfg := h.cfg
  mem := h.mem
  display := hd
  record := ⟨h.record.clear, h.record.atFault, h.record.noAddr, h.record.addr⟩
  stack := h.stack

/-- A stack of return addresses under a push of one (R69). -/
theorem State.StackOk.push {s : State} (h : s.StackOk) {w : Word} (hsp : s.sp.val < 16)
    (hw : 2 ≤ w.toNat ∧ w.toNat ≤ 0x1000) (k : Fin 16) (hk : k.val < s.sp.val + 1) :
    2 ≤ (s.stack.set s.sp.val w hsp)[k].toNat ∧ (s.stack.set s.sp.val w hsp)[k].toNat ≤ 0x1000 := by
  simp only [Fin.getElem_fin, Vector.getElem_set]
  split
  · exact hw
  · exact h k (by omega)

/-! ## The instructions -/

/-- A next state, if this is the answer, meets the invariant. -/
def AnswersInv (r : Result) : Prop := ∀ t, r = .next t → t.Inv

theorem answersInv_next {t : State} (h : t.Inv) : AnswersInv (.next t) := by
  rintro _ ⟨⟩
  exact h

/-- The state an instruction executes in: no fault is recorded, and `PC` is two past an address a fetch succeeds at (R56). -/
structure State.Executing (s : State) : Prop where
  inv : s.Inv
  safe : s.Safe
  pc : 2 ≤ s.pc.toNat ∧ s.pc.toNat ≤ 0x1000

/-- An update outside the guarded fields keeps the invariant while an instruction executes. -/
theorem State.Executing.inv_of_guarded_eq {s t : State} (h : s.Executing) (e : t.guarded = s.guarded) : t.Inv :=
  h.inv.of_guarded_eq (.inl h.safe) e

theorem State.Executing.skipIf_inv {s : State} (h : s.Executing) (c : Bool) : (s.skipIf c).Inv :=
  h.inv_of_guarded_eq (by simp [State.guarded])

/-- RET takes an entry off the stack; the entries below it stay return addresses. -/
theorem execRet_inv {s : State} (h : s.Executing) : AnswersInv (execRet s) := by
  unfold execRet
  rcases s.pop_cases with ⟨hsp, e⟩ | ⟨-, e⟩ <;> rw [e]
  · obtain ⟨⟨cfg, mem, display, ⟨clear, -, noAddr, addr⟩, stack⟩, safe, -⟩ := h
    exact answersInv_next ⟨cfg, mem, display, ⟨clear, (absurd safe ·), noAddr, addr⟩,
      fun k hk => stack k (Nat.lt_of_lt_of_le hk (Nat.sub_le ..))⟩
  · exact answersInv_next (h.inv.enterFault _ (by decide) (by decide))

/-- CALL pushes the advanced `PC`, which is a return address. -/
theorem execCall_inv {s : State} (h : s.Executing) (addr : Addr) : AnswersInv (execCall addr s) := by
  unfold execCall
  rcases s.push_cases s.pc with ⟨hsp, e⟩ | ⟨-, e⟩ <;> rw [e]
  · obtain ⟨⟨cfg, mem, display, ⟨clear, -, noAddr, addr⟩, stack⟩, safe, hpc⟩ := h
    exact answersInv_next ⟨cfg, mem, display, ⟨clear, (absurd safe ·), noAddr, addr⟩, stack.push hsp hpc⟩
  · exact answersInv_next (h.inv.enterFault _ (by decide) (by decide))

/-- DRW keeps the display's shape, and otherwise writes VF only. -/
theorem execDrw_inv {s : State} (h : s.Executing) (x y n : Nibble) : AnswersInv (execDrw x y n s) :=
  answersInv_next <| h.inv.withRange s.i fun _ =>
    (h.inv.setDisplay (drawRows_shape _ _ 0 (s.spriteBytes n) h.inv.display)).of_guarded_eq (.inl h.safe) rfl

theorem execLdBVx_inv {s : State} (h : s.Executing) (x : Nibble) : AnswersInv (execLdBVx x s) :=
  answersInv_next <| h.inv.withRange s.i fun hr =>
    h.inv.storeBytes _ _ (by simpa [bcdDigits] using hr)

/-- LD [I], Vx stores `x + 1` bytes inside memory, then moves `I`. -/
theorem execLdMemVx_inv {s : State} (h : s.Executing) (x : Nibble) : AnswersInv (execLdMemVx x s) := by
  refine answersInv_next <| h.inv.withRange s.i fun hr => ?_
  have hlen : (s.regsUpTo x).length = x.toNat + 1 := by
    have := x.isLt
    simp [State.regsUpTo]; omega
  exact (h.inv.storeBytes _ (s.regsUpTo x) (by omega)).of_guarded_eq (.inr rfl) rfl

/-- LD Vx, K moves `PC` and the key-wait's own elements, and writes a register at its end (R113). -/
theorem execLdVxK_inv {s : State} (h : s.Executing) (x : Nibble) : AnswersInv (execLdVxK x s) := by
  have hseek : s.seekKey.Inv := by
    unfold State.seekKey
    cases s.changedKey <;> exact h.inv_of_guarded_eq rfl
  have hrelease : (s.seekRelease x).Inv := by
    unfold State.seekRelease
    split <;> exact h.inv_of_guarded_eq rfl
  unfold execLdVxK
  cases s.kw with
  | idle | awaitingPress => exact answersInv_next hseek
  | awaitingRelease => exact answersInv_next hrelease

/-- Every instruction keeps the invariant. The last case is the instructions that write outside the guarded fields only:
registers, `I`, `PC`, the timers, the count of random draws. -/
theorem exec_inv {s : State} (h : s.Executing) (i : Instr) : AnswersInv (exec i s) := by
  cases i with
  | ret => exact execRet_inv h
  | call addr => exact execCall_inv h addr
  | cls => exact answersInv_next (h.inv.setDisplay (Grid.blank_shape _))
  | drw x y n => exact execDrw_inv h x y n
  | ldBVx x => exact execLdBVx_inv h x
  | ldMemVx x => exact execLdMemVx_inv h x
  | ldVxMem x => exact answersInv_next (h.inv.withRange s.i fun _ => h.inv_of_guarded_eq (by simp [State.guarded]))
  | ldVxK x => exact execLdVxK_inv h x
  | seVxKk | sneVxKk | seVxVy | sneVxVy | skp | sknp => exact answersInv_next (h.skipIf_inv _)
  | _ => exact answersInv_next (h.inv_of_guarded_eq rfl)

/-! ## The Cycle and the transactions -/

theorem State.Inv.snapshot {s : State} (h : s.Inv) : s.snapshot.Inv :=
  h.of_guarded_eq (.inr (by simp)) (by simp [State.guarded])

/-- After a fetch that succeeds and the advance, an instruction executes (R53, R56). -/
theorem State.Inv.executing_advance {s : State} (h : s.Inv) (hs : s.Safe) (hpc : s.FetchOk) :
    s.snapshot.advance.Executing where
  inv := h.snapshot.of_guarded_eq (.inl (s.snapshot_fault.trans hs)) rfl
  safe := s.snapshot_fault.trans hs
  pc := by
    have : (s.pc + 2).toNat = s.pc.toNat + 2 := by bv_omega
    simp only [State.advance_eq, State.setPc_pc, State.snapshot_pc]
    omega

theorem cycle_inv {s : State} (h : s.Inv) : AnswersInv (cycle s) := by
  rcases cycle_cases s with ⟨-, e⟩ | ⟨-, -, e⟩ | ⟨hs, hpc, e⟩ <;> rw [e]
  · exact answersInv_next h
  · exact answersInv_next (h.snapshot.enterFault _ (by decide) fun _ => by have := s.pc.isLt; omega)
  · exact exec_inv (h.executing_advance hs hpc) _

/-- The block after a reset meets the invariant under any legal configuration. -/
theorem State.resetWith_inv {c : Config} (hc : c.Ok) : (State.resetWith c).Inv where
  cfg := hc
  mem := State.resetWith_wf c
  display := Grid.blank_shape c
  record := ⟨fun _ => ⟨rfl, rfl⟩, (absurd rfl ·), fun _ => rfl, nofun⟩
  stack := fun _ => nofun

theorem State.Inv.load {s : State} (h : s.Inv) (bytes : List Byte) (base : Nat) : (s.load bytes base).Inv := by
  unfold State.load
  split
  · exact h.of_guarded_eq (.inr rfl) rfl
  · exact (h.storeBytes base bytes (by omega)).of_guarded_eq (.inr rfl) rfl

theorem State.Inv.setInbox {s : State} (h : s.Inv) (rest : List Request) : ({ s with inbox := rest } : State).Inv :=
  h.of_guarded_eq (.inr rfl) rfl

theorem perform_inv {s : State} (h : s.Inv) (r : Request) : AnswersInv (perform r s) := by
  cases r with
  | reset => exact answersInv_next ((State.resetWith_inv h.cfg).of_guarded_eq (.inr rfl) rfl)
  | load bytes base => exact answersInv_next (h.load bytes _)
  | cycle => exact cycle_inv h
  | tick => exact answersInv_next (h.of_guarded_eq (.inr rfl) rfl)
  | setKey k pressed =>
    simp only [perform]
    split
    · exact answersInv_next (h.of_guarded_eq (.inr rfl) rfl)
    · exact nofun

theorem step_inv {s : State} (h : s.Inv) : AnswersInv (step s) := by
  unfold step transact
  cases s.inbox with
  | nil => exact cycle_inv h
  | cons r rest => exact perform_inv (h.setInbox rest) r

/-- Settles O3: the invariant holds after a Cycle, by the instruction's own case, and after every other transaction. -/
theorem stepKeepsTheInvariant : Obligations.StepKeepsTheInvariant := by
  unfold Obligations.StepKeepsTheInvariant
  exact fun _ t h e => step_inv h t e

end Sys2Proof.Machine
end

section
/-! SUPPORT. The family of spec/10_state.md: who writes each element of the state (O52), what no instruction reads (O53, O54,
O55), and what the host's requests do to a recorded fault (O9, O56). -/

namespace Sys2Proof.Machine

/-! ## Which element an update writes (R29) -/

/-- The elements of the state an instruction may write, each with a rule of its own, and together those no instruction does. -/
inductive Element where
  /-- `V[r]` (R16). -/
  | reg (r : Nibble)
  | pc
  /-- The fault record: cause, address of the instruction, address outside memory (R24). -/
  | record
  | index
  | stack
  | sp
  | dt
  | st
  | display
  | mem
  /-- `kw` and `kdet` (R23). -/
  | wait
  /-- The model's count of random draws (log entry 1). -/
  | draws
  /-- The live latch and the snapshot; the configuration, the inbox and the reply (log entries 2, 4, 5). -/
  | unwritten

/-- Two states agree on an element. -/
def Element.Agree (s t : State) : Element → Prop
  | .reg r => t.reg r = s.reg r
  | .pc => t.pc = s.pc
  | .record => t.fault = s.fault ∧ t.faultPc = s.faultPc ∧ t.faultAddr = s.faultAddr
  | .index => t.i = s.i
  | .stack => t.stack = s.stack
  | .sp => t.sp = s.sp
  | .dt => t.dt = s.dt
  | .st => t.st = s.st
  | .display => t.display = s.display
  | .mem => t.mem = s.mem
  | .wait => t.kw = s.kw ∧ t.kdet = s.kdet
  | .draws => t.draws = s.draws
  | .unwritten => t.keys = s.keys ∧ t.snap = s.snap ∧ t.cfg = s.cfg ∧ t.inbox = s.inbox ∧ t.reply = s.reply

/-- From `s` to `t` nothing is written but elements of `p`. -/
def WritesOnly (p : Element → Prop) (s t : State) : Prop := ∀ e, ¬ p e → e.Agree s t

namespace WritesOnly

variable {p : Element → Prop} {s t : State}

protected theorem refl (p : Element → Prop) (s : State) : WritesOnly p s s := fun e _ => by
  cases e <;> simp [Element.Agree]

/-- An update that touches one element, a permitted one. -/
theorem update (h : WritesOnly p s t) {u : State} {el : Element} (hel : p el)
    (hu : ∀ e : Element, e = el ∨ (e.Agree s t → e.Agree s u)) : WritesOnly p s u := fun e he => by
  rcases hu e with rfl | hu
  · exact absurd hel he
  · exact hu (h e he)

theorem setReg (h : WritesOnly p s t) {x : Nibble} (b : Byte) (hx : p (.reg x)) : WritesOnly p s (t.setReg x b) :=
  h.update hx fun e => by
    cases e with
    | reg r =>
      by_cases hr : r = x
      · exact .inl (congrArg _ hr)
      · exact .inr (State.setReg_reg_ne t b hr).trans
    | _ => exact .inr id

/-- The flag is written and then the result (R79). -/
theorem setFlagThenReg (h : WritesOnly p s t) {x : Nibble} (flag b : Byte) (hf : p (.reg vf)) (hx : p (.reg x)) :
    WritesOnly p s (t.setFlagThenReg flag x b) :=
  (h.setReg flag hf).setReg b hx

theorem setI (h : WritesOnly p s t) (w : Word) (hi : p .index) : WritesOnly p s (t.setI w) :=
  h.update hi fun e => by
    cases e with
    | index => exact .inl rfl
    | _ => exact .inr id

theorem setDt (h : WritesOnly p s t) (b : Byte) (hd : p .dt) : WritesOnly p s (t.setDt b) :=
  h.update hd fun e => by
    cases e with
    | dt => exact .inl rfl
    | _ => exact .inr id

theorem setSt (h : WritesOnly p s t) (b : Byte) (hd : p .st) : WritesOnly p s (t.setSt b) :=
  h.update hd fun e => by
    cases e with
    | st => exact .inl rfl
    | _ => exact .inr id

theorem setDisplay (h : WritesOnly p s t) (d : Grid) (hd : p .display) : WritesOnly p s (t.setDisplay d) :=
  h.update hd fun e => by
    cases e with
    | display => exact .inl rfl
    | _ => exact .inr id

theorem setPc (h : WritesOnly p s t) (w : Word) (hpc : p .pc) : WritesOnly p s (t.setPc w) :=
  h.update hpc fun e => by
    cases e with
    | pc => exact .inl rfl
    | _ => exact .inr id

theorem skipIf (h : WritesOnly p s t) (c : Bool) (hpc : p .pc) : WritesOnly p s (t.skipIf c) := by
  cases c with
  | false => exact h
  | true => exact h.setPc _ hpc

theorem setKw (h : WritesOnly p s t) (k : KeyWait) (hw : p .wait) : WritesOnly p s (t.setKw k) :=
  h.update hw fun e => by
    cases e with
    | wait => exact .inl rfl
    | _ => exact .inr id

theorem setKdet (h : WritesOnly p s t) (k : Fin 16) (hw : p .wait) : WritesOnly p s (t.setKdet k) :=
  h.update hw fun e => by
    cases e with
    | wait => exact .inl rfl
    | _ => exact .inr id

theorem countDraw (h : WritesOnly p s t) (hd : p .draws) : WritesOnly p s t.countDraw :=
  h.update hd fun e => by
    cases e with
    | draws => exact .inl rfl
    | _ => exact .inr id

theorem writeByte (h : WritesOnly p s t) (a : Nat) (b : Byte) (hm : p .mem) : WritesOnly p s (t.writeByte a b) :=
  h.update hm fun e => by
    cases e with
    | mem => exact .inl rfl
    | _ => exact .inr id

theorem storeBytes (h : WritesOnly p s t) (a : Nat) (bs : List Byte) (hm : p .mem) :
    WritesOnly p s (t.storeBytes a bs) := by
  induction bs generalizing t a with
  | nil => exact h
  | cons b bs ih => exact ih (h.writeByte a b hm) (a + 1)

/-- Fault entry writes the record and `PC` (R121). -/
theorem raise (h : WritesOnly p s t) (c : FaultCause) (a : Nat) (hr : p .record) (hpc : p .pc) :
    WritesOnly p s (t.raise c a) := by
  intro e he
  cases e with
  | record => exact absurd hr he
  | pc => exact absurd hpc he
  | _ => exact h _ he

theorem setRegs (h : WritesOnly p s t) {w : Vector Byte 16}
    (hw : ∀ r, ¬ p (.reg r) → (t.setRegs w).reg r = t.reg r) : WritesOnly p s (t.setRegs w) := by
  intro e he
  cases e with
  | reg r => exact (hw r he).trans (h _ he)
  | _ => exact h _ he

/-- A load of the registers up to `x` writes no register above `x` (R97). -/
theorem setRegs_loadedRegs {x : Nibble} (hx : ∀ r : Nibble, r.toNat ≤ x.toNat → p (.reg r)) :
    WritesOnly p s (s.setRegs (s.loadedRegs x)) :=
  (WritesOnly.refl p s).setRegs fun r hr => by
    have hlt : ¬ r.toNat ≤ x.toNat := fun hle => hr (hx r hle)
    simp [State.reg, State.loadedRegs, hlt]

/-- A push writes the stack and its depth (R20). -/
theorem push {w : Word} (h : s.push w = some t) (hst : p .stack) (hsp : p .sp) : WritesOnly p s t := by
  rcases s.push_cases w with ⟨_, e⟩ | ⟨-, e⟩ <;> rw [e] at h
  · cases h
    intro e he
    cases e with
    | stack => exact absurd hst he
    | sp => exact absurd hsp he
    | _ => exact WritesOnly.refl p s _ he
  · cases h

/-- A pop writes the depth of the stack only (R20). -/
theorem pop {w : Word} (h : s.pop = some (w, t)) (hsp : p .sp) : WritesOnly p s t := by
  rcases s.pop_cases with ⟨_, e⟩ | ⟨-, e⟩ <;> rw [e] at h
  · cases h
    intro e he
    cases e with
    | sp => exact absurd hsp he
    | _ => exact WritesOnly.refl p s _ he
  · cases h

end WritesOnly

/-! ## Each element has its writers -/

/-- `i` may write the element from `s`, by the rules R16 to R25 (and R121 for a fault). -/
def MayWrite (i : Instr) (s : State) : Element → Prop
  | .reg r => i.writesReg r = true
  | .pc => i.writesPc = true ∨ s.causeOf i ≠ .none
  | .record => s.causeOf i ≠ .none
  | .index => (∃ a, i = .ldIAddr a) ∨ (∃ x, i = .addIVx x) ∨ (∃ x, i = .ldFVx x) ∨ (∃ x, i = .ldMemVx x) ∨
      ∃ x, i = .ldVxMem x
  | .stack => ∃ a, i = .call a
  | .sp => i = .ret ∨ ∃ a, i = .call a
  | .dt => ∃ x, i = .ldDtVx x
  | .st => ∃ x, i = .ldStVx x
  | .display => i = .cls ∨ ∃ x y n, i = .drw x y n
  | .mem => (∃ x, i = .ldBVx x) ∨ ∃ x, i = .ldMemVx x
  | .wait => ∃ x, i = .ldVxK x
  | .draws => ∃ x kk, i = .rnd x kk
  | .unwritten => False

namespace WritesOnly

variable {s next : State}

/-- An instruction that faults may write what fault entry writes. -/
theorem raise_mayWrite {i : Instr} (c : FaultCause) (a : Nat) (hc : s.causeOf i ≠ .none) :
    WritesOnly (MayWrite i s) s (s.raise c a) :=
  (WritesOnly.refl _ s).raise c a hc (.inr hc)

/-- An instruction with a data range writes what its effect writes, or what fault entry writes where the range leaves memory. -/
theorem withRange_mayWrite {i : Instr} {base count : Nat} (hnext : WritesOnly (MayWrite i s) s next)
    (hc : count ≠ 0 → 0x1000 < base + count → s.causeOf i ≠ .none) :
    WritesOnly (MayWrite i s) s (withRange s base count next) := by
  rcases withRange_cases s base count next with ⟨-, e⟩ | ⟨h0, h1, e⟩ <;> rw [e]
  · exact hnext
  · exact raise_mayWrite _ _ (hc h0 h1)

end WritesOnly

/-- A next state, if this is the answer, differs from `s` only in elements of `p`. -/
def AnswersWritingOnly (p : Element → Prop) (s : State) (r : Result) : Prop := ∀ t, r = .next t → WritesOnly p s t

theorem answersWritingOnly_next {p : Element → Prop} {s t : State} (h : WritesOnly p s t) :
    AnswersWritingOnly p s (.next t) := by
  rintro _ ⟨⟩
  exact h

open WritesOnly

/-- RET takes an entry off the stack and writes `PC`; with no entry it faults. -/
theorem execRet_mayWrite (s : State) : AnswersWritingOnly (MayWrite .ret s) s (execRet s) := by
  unfold execRet
  rcases s.pop_cases with ⟨_, e⟩ | ⟨hsp, e⟩ <;> rw [e]
  · exact answersWritingOnly_next ((pop e (.inl rfl)).setPc _ (.inl rfl))
  · exact answersWritingOnly_next (raise_mayWrite _ _ (by simp [State.causeOf, hsp]))

/-- CALL pushes an entry and writes `PC`; with no room for one it faults. -/
theorem execCall_mayWrite (s : State) (addr : Addr) :
    AnswersWritingOnly (MayWrite (.call addr) s) s (execCall addr s) := by
  unfold execCall
  rcases s.push_cases s.pc with ⟨_, e⟩ | ⟨hsp, e⟩ <;> rw [e]
  · exact answersWritingOnly_next ((push e ⟨addr, rfl⟩ (.inr ⟨addr, rfl⟩)).setPc _ (.inl rfl))
  · exact answersWritingOnly_next (raise_mayWrite _ _ (by simp [State.causeOf, hsp]))

/-- LD Vx, K writes the key-wait and `PC` while it waits, and `V[x]` when it ends (R113). -/
theorem execLdVxK_mayWrite (s : State) (x : Nibble) :
    AnswersWritingOnly (MayWrite (.ldVxK x) s) s (execLdVxK x s) := by
  have hself : WritesOnly (MayWrite (.ldVxK x) s) s s := .refl _ s
  have hseek : WritesOnly (MayWrite (.ldVxK x) s) s s.seekKey := by
    unfold State.seekKey
    cases s.changedKey with
    | some k => exact ((hself.setKdet k ⟨x, rfl⟩).setKw _ ⟨x, rfl⟩).setPc _ (.inl rfl)
    | none => exact (hself.setKw _ ⟨x, rfl⟩).setPc _ (.inl rfl)
  have hrelease : WritesOnly (MayWrite (.ldVxK x) s) s (s.seekRelease x) := by
    unfold State.seekRelease
    split
    · exact hself.setPc _ (.inl rfl)
    · exact (hself.setReg _ (beq_self_eq_true x)).setKw _ ⟨x, rfl⟩
  unfold execLdVxK
  cases s.kw with
  | idle | awaitingPress => exact answersWritingOnly_next hseek
  | awaitingRelease => exact answersWritingOnly_next hrelease

/-- DRW writes the display and VF, where its sprite lies in memory. -/
theorem execDrw_mayWrite (s : State) (x y n : Nibble) :
    AnswersWritingOnly (MayWrite (.drw x y n) s) s (execDrw x y n s) :=
  answersWritingOnly_next <| withRange_mayWrite
    (((WritesOnly.refl _ s).setDisplay _ (.inr ⟨x, y, n, rfl⟩)).setReg _ (beq_self_eq_true vf))
    fun h0 h1 => by
      have : 0 < n.toNat ∧ 0xFFF < s.i.toNat + n.toNat - 1 := by omega
      simp [State.causeOf, this]

theorem execLdBVx_mayWrite (s : State) (x : Nibble) :
    AnswersWritingOnly (MayWrite (.ldBVx x) s) s (execLdBVx x s) :=
  answersWritingOnly_next <| withRange_mayWrite ((WritesOnly.refl _ s).storeBytes _ _ (.inl ⟨x, rfl⟩))
    fun _ h1 => by
      have : 0xFFF < s.i.toNat + 2 := by omega
      simp [State.causeOf, this]

theorem execLdMemVx_mayWrite (s : State) (x : Nibble) :
    AnswersWritingOnly (MayWrite (.ldMemVx x) s) s (execLdMemVx x s) :=
  answersWritingOnly_next <| withRange_mayWrite
    (((WritesOnly.refl _ s).storeBytes _ _ (.inr ⟨x, rfl⟩)).setI _ (.inr (.inr (.inr (.inl ⟨x, rfl⟩)))))
    fun _ h1 => by
      have : 0xFFF < s.i.toNat + x.toNat := by omega
      simp [State.causeOf, this]

theorem execLdVxMem_mayWrite (s : State) (x : Nibble) :
    AnswersWritingOnly (MayWrite (.ldVxMem x) s) s (execLdVxMem x s) :=
  answersWritingOnly_next <| withRange_mayWrite
    ((setRegs_loadedRegs fun _ hr => decide_eq_true hr).setI _ (.inr (.inr (.inr (.inr ⟨x, rfl⟩)))))
    fun _ h1 => by
      have : 0xFFF < s.i.toNat + x.toNat := by omega
      simp [State.causeOf, this]

/-- Every instruction writes only what the rules let it write. -/
theorem exec_mayWrite (i : Instr) (s : State) : AnswersWritingOnly (MayWrite i s) s (exec i s) := by
  have hself : WritesOnly (MayWrite i s) s s := .refl _ s
  cases i with
  | sys | nop => exact answersWritingOnly_next hself
  | cls => exact answersWritingOnly_next (hself.setDisplay _ (.inl rfl))
  | ret => exact execRet_mayWrite s
  | call addr => exact execCall_mayWrite s addr
  | jp | jpV0 => exact answersWritingOnly_next (hself.setPc _ (.inl rfl))
  | seVxKk | sneVxKk | seVxVy | sneVxVy | skp | sknp => exact answersWritingOnly_next (hself.skipIf _ (.inl rfl))
  | ldVxKk x | addVxKk x | ldVxVy x | ldVxDt x =>
    exact answersWritingOnly_next (hself.setReg _ (beq_self_eq_true x))
  | orVxVy x | andVxVy x | xorVxVy x | addVxVy x | subVxVy x | shrVx x | subnVxVy x | shlVx x =>
    exact answersWritingOnly_next (hself.setFlagThenReg _ _ (by simp [MayWrite, Instr.writesReg])
      (by simp [MayWrite, Instr.writesReg]))
  | rnd x kk =>
    exact answersWritingOnly_next ((hself.countDraw ⟨x, kk, rfl⟩).setReg _ (beq_self_eq_true x))
  | ldIAddr addr => exact answersWritingOnly_next (hself.setI _ (.inl ⟨addr, rfl⟩))
  | addIVx x => exact answersWritingOnly_next (hself.setI _ (.inr (.inl ⟨x, rfl⟩)))
  | ldFVx x => exact answersWritingOnly_next (hself.setI _ (.inr (.inr (.inl ⟨x, rfl⟩))))
  | ldDtVx x => exact answersWritingOnly_next (hself.setDt _ ⟨x, rfl⟩)
  | ldStVx x => exact answersWritingOnly_next (hself.setSt _ ⟨x, rfl⟩)
  | ldVxK x => exact execLdVxK_mayWrite s x
  | drw x y n => exact execDrw_mayWrite s x y n
  | ldBVx x => exact execLdBVx_mayWrite s x
  | ldMemVx x => exact execLdMemVx_mayWrite s x
  | ldVxMem x => exact execLdVxMem_mayWrite s x

/-- Settles O52: an element that differs after an instruction is one the instruction may write. -/
theorem eachElementHasItsWriters : Obligations.EachElementHasItsWriters := by
  unfold Obligations.EachElementHasItsWriters
  intro i s t e
  have hw : WritesOnly (MayWrite i s) s t := exec_mayWrite i s t e
  have changed (el : Element) : ¬ el.Agree s t → MayWrite i s el := not_imp_comm.1 (hw el)
  obtain ⟨hkeys, hsnap, hcfg, hinbox, hreply⟩ := hw .unwritten id
  refine ⟨fun r => changed (.reg r), changed .pc, fun h => changed .record ?_, changed .index, changed .stack,
    changed .sp, changed .dt, changed .st, changed .display, changed .mem, fun h => changed .wait ?_, hkeys, hsnap,
    changed .draws, hcfg, hinbox, hreply⟩
  · rintro ⟨hfault, hpc, haddr⟩
    simp [hfault, hpc, haddr] at h
  · rintro ⟨hkw, hkdet⟩
    simp [hkw, hkdet] at h

/-! ## What no instruction reads: the sound timer and the host's requests -/

/-- `s` with its two elements that no instruction reads updated: `ST` (R21) and the inbox (log entry 4). -/
def State.mapUnread (f : Byte → Byte) (g : List Request → List Request) (s : State) : State :=
  { s with st := f s.st, inbox := g s.inbox }

/-- An answer with its next state updated. -/
def mapNext (m : State → State) : Result → Result
  | .next t => .next (m t)
  | .fault r => .fault r
  | .refused r => .refused r

section

variable (f : Byte → Byte) (g : List Request → List Request) (s : State)

theorem skipIf_mapUnread (c : Bool) : (s.mapUnread f g).skipIf c = (s.skipIf c).mapUnread f g := by
  cases c <;> rfl

theorem storeBytes_mapUnread (a : Nat) (bs : List Byte) :
    (s.mapUnread f g).storeBytes a bs = (s.storeBytes a bs).mapUnread f g := by
  induction bs generalizing s a with
  | nil => rfl
  | cons b bs ih => exact ih (s.writeByte a b) (a + 1)

theorem withRange_mapUnread (base count : Nat) {next next' : State} (h : next' = next.mapUnread f g) :
    withRange (s.mapUnread f g) base count next' = (withRange s base count next).mapUnread f g := by
  subst h
  unfold withRange
  cases rangeFault base count <;> rfl

theorem execRet_mapUnread : execRet (s.mapUnread f g) = mapNext (State.mapUnread f g) (execRet s) := by
  unfold execRet
  rcases s.pop_cases with ⟨h, e⟩ | ⟨h, e⟩
  · have e' : (s.mapUnread f g).pop = some (_, _) := dif_pos h
    rw [e, e']
    rfl
  · have e' : (s.mapUnread f g).pop = none := dif_neg (Nat.not_lt.2 h.le)
    rw [e, e']
    rfl

theorem execCall_mapUnread (addr : Addr) :
    execCall addr (s.mapUnread f g) = mapNext (State.mapUnread f g) (execCall addr s) := by
  unfold execCall
  rcases s.push_cases s.pc with ⟨h, e⟩ | ⟨h, e⟩
  · have e' : (s.mapUnread f g).push (s.mapUnread f g).pc = some _ := dif_pos h
    rw [e, e']
    rfl
  · have e' : (s.mapUnread f g).push (s.mapUnread f g).pc = none := dif_neg (Nat.not_lt.2 h.ge)
    rw [e, e']
    rfl

theorem seekKey_mapUnread : (s.mapUnread f g).seekKey = s.seekKey.mapUnread f g := by
  have hk : (s.mapUnread f g).changedKey = s.changedKey := rfl
  unfold State.seekKey
  rw [hk]
  cases s.changedKey <;> rfl

theorem seekRelease_mapUnread (x : Nibble) : (s.mapUnread f g).seekRelease x = (s.seekRelease x).mapUnread f g := by
  have hk : (s.mapUnread f g).keys[(s.mapUnread f g).kdet] = s.keys[s.kdet] := rfl
  unfold State.seekRelease
  rw [hk]
  split <;> rfl

theorem execLdVxK_mapUnread (x : Nibble) :
    execLdVxK x (s.mapUnread f g) = mapNext (State.mapUnread f g) (execLdVxK x s) := by
  have hk : (s.mapUnread f g).kw = s.kw := rfl
  unfold execLdVxK
  rw [hk]
  cases s.kw with
  | idle | awaitingPress => exact congrArg _ (seekKey_mapUnread f g s)
  | awaitingRelease => exact congrArg _ (seekRelease_mapUnread f g s x)

/-- An instruction commutes with any update of the inbox, and, but for LD ST, Vx, with any of `ST`. The last case is the
instructions that are one chain of field updates. -/
theorem exec_mapUnread (i : Instr) (hf : f = id ∨ ¬ ∃ x, i = .ldStVx x) :
    exec i (s.mapUnread f g) = mapNext (State.mapUnread f g) (exec i s) := by
  cases i with
  | ldStVx x =>
    rcases hf with rfl | hf
    · rfl
    · exact absurd ⟨x, rfl⟩ hf
  | ret => exact execRet_mapUnread f g s
  | call addr => exact execCall_mapUnread f g s addr
  | seVxKk | sneVxKk | seVxVy | sneVxVy | skp | sknp => exact congrArg _ (skipIf_mapUnread f g s _)
  | ldVxK x => exact execLdVxK_mapUnread f g s x
  | drw | ldVxMem => exact congrArg Host.Outcome.next (withRange_mapUnread f g s _ _ rfl)
  | ldBVx x => exact congrArg _ (withRange_mapUnread f g s _ _ (storeBytes_mapUnread f g s ..))
  | ldMemVx x =>
    exact congrArg _ (withRange_mapUnread f g s _ _ (congrArg (State.setI · _) (storeBytes_mapUnread f g s ..)))
  | _ => rfl

end

/-- Settles O53: LD ST, Vx overwrites `ST`, and every other instruction commutes with a change of it. -/
theorem noInstructionReadsTheSoundTimer : Obligations.NoInstructionReadsTheSoundTimer := by
  unfold Obligations.NoInstructionReadsTheSoundTimer
  intro i s t b e
  by_cases hi : ∃ x, i = .ldStVx x
  · obtain ⟨x, rfl⟩ := hi
    cases e
    exact ⟨s.reg x, rfl⟩
  · have h := exec_mapUnread (fun _ => b) id s i (.inr hi)
    rw [e] at h
    exact ⟨b, h⟩

/-- Settles O55: every instruction commutes with a change of the inbox. -/
theorem pendingRequestsDoNotReachAnInstruction : Obligations.PendingRequestsDoNotReachAnInstruction := by
  unfold Obligations.PendingRequestsDoNotReachAnInstruction
  intro i s t q e
  have h := exec_mapUnread id (fun _ => q) s i (.inl rfl)
  rwa [e] at h

/-! ## The flag producers and the old flag -/

theorem State.setReg_setReg (s : State) (x : Nibble) (b c : Byte) : (s.setReg x b).setReg x c = s.setReg x c := by
  simp [State.setReg]

/-- DRW inside memory draws the same and writes the same VF, whatever VF held before. -/
theorem execDrw_setReg_vf {s : State} {x y n : Nibble} (b : Byte) (hx : (s.setReg vf b).reg x = s.reg x)
    (hy : (s.setReg vf b).reg y = s.reg y) (hr : n.toNat = 0 ∨ s.i.toNat + n.toNat ≤ 0x1000) :
    execDrw x y n (s.setReg vf b) = execDrw x y n s := by
  have hdraw : (s.setReg vf b).composited x y n = s.composited x y n := by
    simp only [State.composited, hx, hy]
    rfl
  simp only [execDrw, State.setReg_i, withRange_ok _ hr, hdraw]
  exact congrArg _ ((s.setDisplay (s.composited x y n).1).setReg_setReg vf b _)

/-- Settles O54: the operands read the same with any value in VF, and VF is overwritten before the result is written. -/
theorem flagProducersNeverReadTheOldFlag : Obligations.FlagProducersNeverReadTheOldFlag := by
  unfold Obligations.FlagProducersNeverReadTheOldFlag
  intro i ops s b hops hvf hc
  have hreg : ∀ r ∈ ops, (s.setReg vf b).reg r = s.reg r := fun r hr =>
    s.setReg_reg_ne b (ne_of_mem_of_not_mem hr hvf)
  have hflag (f : Byte) (x : Nibble) (r : Byte) : (s.setReg vf b).setFlagThenReg f x r = s.setFlagThenReg f x r :=
    congrArg (State.setReg · x r) (s.setReg_setReg vf b f)
  cases i with
  | orVxVy x y | andVxVy x y | xorVxVy x y | addVxVy x y | subVxVy x y | subnVxVy x y =>
    cases hops
    have hx := hreg x (by simp)
    have hy := hreg y (by simp)
    simp only [exec, execOrVxVy, execAndVxVy, execXorVxVy, execAddVxVy, execSubVxVy, execSubnVxVy, hx, hy, hflag]
  | shrVx x | shlVx x =>
    cases hops
    have hx := hreg x (by simp)
    simp only [exec, execShrVx, execShlVx, hx, hflag]
  | drw x y n =>
    cases hops
    refine execDrw_setReg_vf b (hreg x (by simp)) (hreg y (by simp)) ?_
    simp only [State.causeOf, ite_eq_right_iff, reduceCtorEq, imp_false] at hc
    omega
  | _ => cases hops

/-! ## The host's requests -/

/-- Settles O9: a step takes the head of the inbox off and performs it. -/
theorem stepPerformsTheNextRequest : Obligations.StepPerformsTheNextRequest := by
  unfold Obligations.StepPerformsTheNextRequest
  intro s r rest h
  simp only [step, transact, h]

/-- A Cycle while a fault is recorded changes nothing (R54). -/
theorem cycle_of_fault {s : State} (hf : s.fault ≠ .none) : cycle s = .next s := if_neg hf

/-- The fault record and `PC` are as before. -/
def SameRecord (s t : State) : Prop :=
  t.fault = s.fault ∧ t.faultPc = s.faultPc ∧ t.faultAddr = s.faultAddr ∧ t.pc = s.pc

theorem load_sameRecord (s : State) (bytes : List Byte) (base : Nat) : SameRecord s (s.load bytes base) := by
  unfold State.load
  split <;> simp [SameRecord]

/-- A request performed while a fault is recorded is a Reset, or leaves the record and `PC` (R54, R124). -/
theorem perform_of_fault {s t : State} {r : Request} (hf : s.fault ≠ .none) (e : perform r s = .next t) :
    (r = .reset ∧ t.fault = .none) ∨ SameRecord s t := by
  cases r with
  | reset =>
    cases e
    exact .inl ⟨rfl, rfl⟩
  | load bytes base =>
    cases e
    exact .inr (load_sameRecord ..)
  | cycle =>
    cases (cycle_of_fault hf).symm.trans e
    exact .inr ⟨rfl, rfl, rfl, rfl⟩
  | tick =>
    cases e
    exact .inr ⟨rfl, rfl, rfl, rfl⟩
  | setKey k pressed =>
    simp only [perform] at e
    split at e <;> cases e
    exact .inr ⟨rfl, rfl, rfl, rfl⟩

/-- Settles O56: with no request the step is a Cycle, which changes nothing; otherwise it performs the request. -/
theorem onlyResetClearsAFault : Obligations.OnlyResetClearsAFault := by
  unfold Obligations.OnlyResetClearsAFault
  intro s t hf e
  cases hi : s.inbox with
  | nil =>
    have hs : step s = cycle s := by simp only [step, transact, hi]
    cases (cycle_of_fault hf).symm.trans (hs.symm.trans e)
    exact .inr ⟨rfl, rfl, rfl, rfl⟩
  | cons r rest =>
    rw [stepPerformsTheNextRequest s r rest hi] at e
    rcases perform_of_fault (s := { s with inbox := rest }) hf e with ⟨rfl, ht⟩ | hsame
    · exact .inl ⟨rest, rfl, ht⟩
    · exact .inr hsame

end Sys2Proof.Machine
end

section
/-! SUPPORT. The family of spec/20_memory.md, first part: words, the fields a mask of R60 cuts out of them, and the decoder
after the encoder (O4). -/

namespace Sys2Proof

/-! ## The fields a mask cuts out of a word (R50) -/

theorem kkOf_wordA (op : Nibble) (addr : Addr) : kkOf (wordA op addr) = addr.setWidth 8 := by
  unfold kkOf wordA; ext k hk
  interval_cases k <;> simp

theorem and_opMask (w : Word) : w &&& 0xF000 = wordA (opOf w) 0 := by
  have e : wordA (opOf w) 0 = (opOf w).setWidth 16 <<< 12 := BitVec.or_zero
  rw [e, opOf]; ext k hk
  have : k < 16 := hk
  interval_cases k <;> simp

theorem and_nMask (w : Word) : w &&& 0x000F = (nOf w).setWidth 16 := by
  unfold nOf; ext k hk
  have : k < 16 := hk
  interval_cases k <;> simp

theorem and_kkMask (w : Word) : w &&& 0x00FF = (kkOf w).setWidth 16 := by
  unfold kkOf; ext k hk
  have : k < 16 := hk
  interval_cases k <;> simp

/-- The word of two bytes is big-endian (R32). -/
theorem wordOfBytes_toNat (hi lo : Byte) : (wordOfBytes hi lo).toNat = hi.toNat * 256 + lo.toNat := by
  have hhi : (hi.setWidth 16 <<< 8).toNat = hi.toNat <<< 8 := by
    rw [BitVec.toNat_shiftLeft, BitVec.toNat_setWidth_of_le (by decide), Nat.shiftLeft_eq]
    omega
  rw [wordOfBytes, BitVec.toNat_or, hhi, BitVec.toNat_setWidth_of_le (by decide),
    ← Nat.shiftLeft_add_eq_or_of_lt lo.isLt, Nat.shiftLeft_eq]

/-- Widening keeps apart what a list of narrow values keeps apart. -/
theorem setWidth_mem_map_iff {v n : Nat} (hvn : v ≤ n) {a : BitVec v} {l : List (BitVec v)} :
    a.setWidth n ∈ l.map (BitVec.setWidth n) ↔ a ∈ l := by
  refine List.mem_map_of_injective fun b c h => ?_
  have := congrArg (BitVec.setWidth v) h
  simpa [BitVec.setWidth_setWidth_of_le _ hvn] using this

theorem wordA_zero_inj {op op' : Nibble} : wordA op 0 = wordA op' 0 ↔ op = op' :=
  ⟨fun h => by simpa using congrArg opOf h, fun h => h ▸ rfl⟩

/-! ## The words of the default arm and of SYS (R60) -/

/-- The holes of R60 by the fields of the word, as the decoder reads them. -/
theorem isHole_iff (w : Word) :
    isHole w = true ↔
      (opOf w = 0x8 ∧ nOf w ∈ ([0x8, 0x9, 0xA, 0xB, 0xC, 0xD, 0xF] : List Nibble)) ∨
      (opOf w = 0xE ∧ kkOf w ∉ ([0x9E, 0xA1] : List Byte)) ∨
      (opOf w = 0xF ∧ kkOf w ∉ ([0x07, 0x0A, 0x15, 0x18, 0x1E, 0x29, 0x33, 0x55, 0x65] : List Byte)) := by
  have hop (op : Nibble) : w &&& 0xF000 = wordA op 0 ↔ opOf w = op := by rw [and_opMask, wordA_zero_inj]
  have hn (l : List Nibble) : w &&& 0x000F ∈ l.map (BitVec.setWidth 16) ↔ nOf w ∈ l := by
    rw [and_nMask, setWidth_mem_map_iff (by decide)]
  have hkk (l : List Byte) : w &&& 0x00FF ∈ l.map (BitVec.setWidth 16) ↔ kkOf w ∈ l := by
    rw [and_kkMask, setWidth_mem_map_iff (by decide)]
  rw [← hop, ← hop, ← hop, ← hn, ← hkk, ← hkk]
  simp only [isHole, Bool.or_eq_true, Bool.and_eq_true, beq_iff_eq, decide_eq_true_eq, or_assoc]
  rfl

/-- A hole is decoded by the default arm, which keeps the word (R58, R60). -/
theorem decodeWord_of_isHole {w : Word} (h : isHole w = true) : decodeWord w = .nop w := by
  rcases (isHole_iff w).1 h with ⟨hop, hn⟩ | ⟨hop, hkk⟩ | ⟨hop, hkk⟩
  · have e : decodeWord w = decodeFamily8 w := by simp [decodeWord, hop]
    simp only [List.mem_cons, List.not_mem_nil, or_false] at hn
    rcases hn with hn | hn | hn | hn | hn | hn | hn <;> simp [e, decodeFamily8, hn]
  · simp only [List.mem_cons, List.not_mem_nil, or_false, not_or, ← BitVec.toNat_inj] at hkk
    simp only [decodeWord, decodeFamilyE, hop]
    split <;> simp_all
  · simp only [List.mem_cons, List.not_mem_nil, or_false, not_or, ← BitVec.toNat_inj] at hkk
    simp only [decodeWord, decodeFamilyF, hop]
    split <;> simp_all

/-- The addresses of SYS are those whose low byte is neither that of CLS nor that of RET (R60). -/
theorem isSysAddr_iff (addr : Addr) : isSysAddr addr = true ↔ addr.setWidth 8 ∉ ([0xE0, 0xEE] : List Byte) := by
  have e : addr &&& 0x0FF = (addr.setWidth 8).setWidth 12 := by
    ext k hk
    interval_cases k <;> simp
  rw [← setWidth_mem_map_iff (n := 12) (by decide), ← e]
  simp only [isSysAddr, decide_eq_true_eq]
  rfl

theorem decodeWord_sys {addr : Addr} (h : isSysAddr addr = true) : decodeWord (wordA 0x0 addr) = .sys addr := by
  have hkk := (isSysAddr_iff addr).1 h
  simp only [List.mem_cons, List.not_mem_nil, or_false, not_or, ← BitVec.toNat_inj] at hkk
  simp only [decodeWord, decodeFamily0, opOf_wordA, kkOf_wordA, addrOf_wordA]
  split <;> simp_all

/-! ## The decoder after the encoder -/

/-- The decoder gives a well-formed instruction back: SYS and the default arm by what their well-formedness excludes, every
other by the fields of its format. -/
theorem decodeWord_encode {i : Instr} (h : i.wellFormed = true) : decodeWord (encode i) = i := by
  cases i with
  | sys addr => exact decodeWord_sys h
  | nop w => exact decodeWord_of_isHole h
  | _ => simp [encode, decodeWord, decodeFamily0, decodeFamily8, decodeFamilyE, decodeFamilyF]

/-- Settles O4: the word of a well-formed instruction decodes to it, and its two bytes are that word. -/
theorem encodeThenDecode : Obligations.EncodeThenDecode := by
  unfold Obligations.EncodeThenDecode
  intro i h
  refine ⟨decodeWord_encode h, fun rest => ?_⟩
  simp [encodeBytes, bytesOfWord, decode, decodeWord_encode h]

end Sys2Proof
end

section
/-! SUPPORT. The family of spec/20_memory.md, second part: the fetch and the Cycle (O8, O10, O59), the faults the instructions
raise (O13, O31), the memory transfers (O32 to O36). -/

namespace Sys2Proof.Machine

/-! ## The Cycle a step performs (R32, R40, R53) -/

/-- Where the next transaction is a Cycle, a step performs it with the request taken off the inbox. -/
theorem step_of_cycleNext {s : State} (h : s.CycleNext) : step s = cycle s.popRequest := by
  rcases h with h | ⟨rest, h⟩
  · have e : s.popRequest = s := by
      rw [State.popRequest, h, List.tail_nil, ← h]
    simp only [step, transact, h, e]
  · simp only [step, transact, perform, State.popRequest, h, List.tail_cons]

/-- The snapshot step writes the snapshot and nothing else (R55). -/
theorem State.snapshot_eq (s : State) :
    s.snapshot = { s with snap := if s.kw = .idle then s.keys else s.snap } := by
  unfold State.snapshot
  split <;> rfl

/-- A Cycle whose fetch succeeds executes the word at `PC`. -/
theorem cycle_of_fetchOk {s : State} (hs : s.Safe) (hpc : s.FetchOk) :
    cycle s = exec (decodeWord (s.wordAt s.pc.toNat)) s.snapshot.advance := by
  rcases cycle_cases s with ⟨hf, -⟩ | ⟨-, h, -⟩ | ⟨-, -, e⟩
  · exact absurd hs hf
  · exact absurd hpc (by omega)
  · exact e

/-- A Cycle whose fetch leaves memory raises AddressFault at the unadvanced `PC` (R40). -/
theorem cycle_of_not_fetchOk {s : State} (hs : s.Safe) (hpc : ¬ s.FetchOk) :
    cycle s = .next (s.snapshot.faulted .addressFault s.pc (max s.pc.toNat 0x1000)) := by
  rcases cycle_cases s with ⟨hf, -⟩ | ⟨-, -, e⟩ | ⟨-, h, -⟩
  · exact absurd hs hf
  · exact e
  · exact absurd h hpc

/-- Settles O8: a Cycle with no fault recorded and its fetch inside memory executes the word at `PC`. -/
theorem stepRunsTheDecodedInstruction : Obligations.StepRunsTheDecodedInstruction := by
  unfold Obligations.StepRunsTheDecodedInstruction
  intro s hnext hsafe hpc
  rw [step_of_cycleNext hnext, cycle_of_fetchOk (s := s.popRequest) hsafe hpc, State.snapshot_eq]
  rfl

/-- Settles O10: the word at `PC` by its bytes, and the Cycle whose fetch leaves memory. -/
theorem fetchReadsBigEndianOrFaults : Obligations.FetchReadsBigEndianOrFaults := by
  unfold Obligations.FetchReadsBigEndianOrFaults
  intro s hnext hsafe
  refine ⟨wordOfBytes_toNat _ _, fun hpc => ?_⟩
  have haddr : max s.pc.toNat 0x1000 = if s.pc.toNat ≤ 0xFFF then s.pc.toNat + 1 else s.pc.toNat := by split <;> omega
  have hfetch : ¬ s.popRequest.FetchOk := fun (h : s.pc.toNat ≤ 0xFFE) => by omega
  rw [step_of_cycleNext hnext, cycle_of_not_fetchOk (s := s.popRequest) hsafe hfetch, State.snapshot_eq, ← haddr]
  exact ⟨_, rfl, rfl, rfl⟩

/-! ## Memory after a run of stores (R37) -/

/-- A run of stores writes memory and nothing else. -/
theorem State.storeBytes_eq (s : State) (a : Nat) (bs : List Byte) :
    s.storeBytes a bs = { s with mem := (s.storeBytes a bs).mem } := by
  induction bs generalizing s a with
  | nil => rfl
  | cons b bs ih => exact ih (s.writeByte a b) (a + 1)

/-- Each byte of a run of stores stands at its own address. -/
theorem State.storeBytes_readByte_add (s : State) (a : Nat) {bs : List Byte} {k : Nat} (hk : k < bs.length) :
    (s.storeBytes a bs).readByte (a + k) = bs[k] := by
  simp [State.storeBytes_readByte, hk]

theorem State.storeBytes_sameBytesOutside (s : State) (a : Nat) (bs : List Byte) :
    SameBytesOutside s (s.storeBytes a bs) a bs.length := by
  intro c hc
  rw [State.storeBytes_readByte, dif_neg (by omega)]

/-- The two bytes of a word stored in the order memory holds them are that word (R32). -/
theorem State.storeBytes_wordAt (s : State) (a : Nat) (w : Word) :
    (s.storeBytes a (bytesOfWord w)).wordAt a = w := by
  simp [State.wordAt, State.storeBytes_readByte, bytesOfWord]

/-! ## A word placed for the next fetch -/

theorem State.fetchSite_le (s : State) : s.fetchSite.toNat ≤ 0xFFE := by
  unfold State.fetchSite
  split
  · assumption
  · decide

/-- Settles O59: the placed state has no request and no fault, its fetch lies in memory and reads the placed word. -/
theorem placedWordRunsNext : Obligations.PlacedWordRunsNext := by
  unfold Obligations.PlacedWordRunsNext
  intro s w
  have hplace : s.withFetchWord 16 w.toNat = s.placeWord w := by
    rw [State.withFetchWord, Nat.mod_eq_of_lt w.isLt, BitVec.ofNat_toNat, BitVec.setWidth_eq]
  have hword : (s.placeWord w).wordAt (s.placeWord w).pc.toNat = w := s.storeBytes_wordAt _ w
  rw [hplace, step_of_cycleNext (.inl rfl), cycle_of_fetchOk (s := (s.placeWord w).popRequest) rfl s.fetchSite_le]
  exact congrArg (fun v => exec (decodeWord v) _) hword

/-! ## Faults of the instructions (R41, R117, R121) -/

/-- A data range that leaves memory raises AddressFault with the first address of it above 0xFFF (R41). -/
theorem withRange_eq_faulted {s : State} {base kmax : Nat} (next : State) (h : 0xFFF < base + kmax) :
    withRange s base (kmax + 1) next = s.faulted .addressFault (s.pc - 2) (max base 0x1000) :=
  withRange_fault next (by omega) (by omega)

/-- Settles O31: each of the four instructions checks a range of `kmax + 1` bytes from `I`. -/
theorem dataRangesOutsideMemoryFault : Obligations.DataRangesOutsideMemoryFault := by
  unfold Obligations.DataRangesOutsideMemoryFault
  intro i s kmax hi h
  rcases hi with ⟨x, y, n, rfl, hn⟩ | ⟨x, rfl, rfl⟩ | ⟨x, rfl, rfl⟩ | ⟨x, rfl, rfl⟩
  · simp only [exec, execDrw, hn, withRange_eq_faulted _ h]
  · exact congrArg _ (withRange_eq_faulted _ h)
  · exact congrArg _ (withRange_eq_faulted _ h)
  · exact congrArg _ (withRange_eq_faulted _ h)

theorem exec_ret_of_empty {s : State} (hsp : s.sp.val = 0) :
    exec .ret s = .next (s.faulted .stackUnderflow (s.pc - 2) 0) := by
  rcases s.pop_cases with ⟨h, -⟩ | ⟨-, e⟩
  · omega
  · simp only [exec, execRet, e]
    rfl

theorem exec_call_of_full {s : State} (addr : Addr) (hsp : s.sp.val = 16) :
    exec (.call addr) s = .next (s.faulted .stackOverflow (s.pc - 2) 0) := by
  rcases s.push_cases s.pc with ⟨h, -⟩ | ⟨-, e⟩
  · omega
  · simp only [exec, execCall, e]
    rfl

/-- Where the condition of R117 holds, the instruction enters that fault and does nothing else (R121). -/
theorem exec_of_causeOf_ne_none {i : Instr} {s : State} (hc : s.causeOf i ≠ .none) :
    exec i s = .next (s.faulted (s.causeOf i) (s.pc - 2)
      (if s.causeOf i = .addressFault then max s.i.toNat 0x1000 else 0)) := by
  have hrange := dataRangesOutsideMemoryFault i s
  cases i with
  | ret =>
    have h : s.sp.val = 0 := (ite_ne_right_iff.1 hc).1
    rw [show s.causeOf .ret = .stackUnderflow from if_pos h]
    exact exec_ret_of_empty h
  | call addr =>
    have h : s.sp.val = 16 := (ite_ne_right_iff.1 hc).1
    rw [show s.causeOf (.call addr) = .stackOverflow from if_pos h]
    exact exec_call_of_full addr h
  | drw x y n =>
    have h : 0 < n.toNat ∧ 0xFFF < s.i.toNat + n.toNat - 1 := (ite_ne_right_iff.1 hc).1
    rw [show s.causeOf (.drw x y n) = .addressFault from if_pos h]
    exact hrange (n.toNat - 1) (.inl ⟨x, y, n, rfl, by omega⟩) (by omega)
  | ldBVx x =>
    have h : 0xFFF < s.i.toNat + 2 := (ite_ne_right_iff.1 hc).1
    rw [show s.causeOf (.ldBVx x) = .addressFault from if_pos h]
    exact hrange 2 (.inr (.inl ⟨x, rfl, rfl⟩)) h
  | ldMemVx x =>
    have h : 0xFFF < s.i.toNat + x.toNat := (ite_ne_right_iff.1 hc).1
    rw [show s.causeOf (.ldMemVx x) = .addressFault from if_pos h]
    exact hrange x.toNat (.inr (.inr (.inl ⟨x, rfl, rfl⟩))) h
  | ldVxMem x =>
    have h : 0xFFF < s.i.toNat + x.toNat := (ite_ne_right_iff.1 hc).1
    rw [show s.causeOf (.ldVxMem x) = .addressFault from if_pos h]
    exact hrange x.toNat (.inr (.inr (.inr ⟨x, rfl, rfl⟩))) h
  | _ => exact absurd rfl hc

/-- Settles O13: with no condition the record is not written (O52); with one the instruction is its fault entry. -/
theorem instructionsFaultExactlyWhenTheirConditionHolds :
    Obligations.InstructionsFaultExactlyWhenTheirConditionHolds := by
  unfold Obligations.InstructionsFaultExactlyWhenTheirConditionHolds
  intro i s hs
  by_cases hc : s.causeOf i = .none
  · obtain ⟨t, e⟩ := exec_next i s
    obtain ⟨hfault, -⟩ : Element.record.Agree s t := exec_mayWrite i s t e _ (not_not_intro hc)
    exact ⟨t, e, by rw [hfault, hs, hc], fun h => absurd hc h⟩
  · exact ⟨_, exec_of_causeOf_ne_none hc, rfl, fun _ => rfl⟩

/-! ## The memory transfers (R95, R96, R97) -/

section
variable {x : Nibble} {s : State}

/-- LD B, Vx with its range inside memory. -/
theorem exec_ldBVx_inside (h : s.i.toNat + 2 ≤ 0xFFF) :
    exec (.ldBVx x) s = .next (s.storeBytes s.i.toNat (bcdDigits (s.reg x))) := by
  rw [exec, execLdBVx, withRange_ok _ (by omega)]

/-- LD [I], Vx with its range inside memory. -/
theorem exec_ldMemVx_inside (h : s.i.toNat + x.toNat ≤ 0xFFF) :
    exec (.ldMemVx x) s = .next ((s.storeBytes s.i.toNat (s.regsUpTo x)).setI (s.indexPast x)) := by
  rw [exec, execLdMemVx, withRange_ok _ (by omega)]

/-- LD Vx, [I] with its range inside memory. -/
theorem exec_ldVxMem_inside (h : s.i.toNat + x.toNat ≤ 0xFFF) :
    exec (.ldVxMem x) s = .next ((s.setRegs (s.loadedRegs x)).setI (s.indexPast x)) := by
  rw [exec, execLdVxMem, withRange_ok _ (by omega)]

end

/-- Settles O32: the digits stand where the run of stores put them; each is below 256. -/
theorem bcdStoresThreeDigits : Obligations.BcdStoresThreeDigits := by
  unfold Obligations.BcdStoresThreeDigits
  intro x s
  refine ⟨decodeWord_encode (i := .ldBVx x) rfl, fun h => ?_,
    dataRangesOutsideMemoryFault _ s 2 (.inr (.inl ⟨x, rfl, rfl⟩))⟩
  have digit (k : Nat) (hk : k < 3) := s.storeBytes_readByte_add s.i.toNat (bs := bcdDigits (s.reg x)) hk
  have hx := (s.reg x).isLt
  refine ⟨_, exec_ldBVx_inside h, ?_, ?_, ?_, s.storeBytes_sameBytesOutside _ (bcdDigits (s.reg x)), s.storeBytes_eq _ _⟩
  · exact (congrArg _ (digit 0 (by omega))).trans (Nat.mod_eq_of_lt (by omega))
  · exact (congrArg _ (digit 1 (by omega))).trans (Nat.mod_eq_of_lt (by omega))
  · exact (congrArg _ (digit 2 (by omega))).trans (Nat.mod_eq_of_lt (by omega))

theorem State.regsUpTo_length (s : State) (x : Nibble) : (s.regsUpTo x).length = x.toNat + 1 := by
  rw [State.regsUpTo, List.length_take, Vector.length_toList]
  have := x.isLt
  omega

theorem State.regsUpTo_getElem (s : State) {x r : Nibble} (h : r.toNat < (s.regsUpTo x).length) :
    (s.regsUpTo x)[r.toNat] = s.reg r := by
  simp [State.regsUpTo, State.reg]

theorem State.indexPast_toNat (s : State) (x : Nibble) :
    (s.indexPast x).toNat = (s.i.toNat + x.toNat + 1) % 65536 := by
  simp [State.indexPast, Nat.add_assoc]

/-- For any register file, so that no proof evaluates the file a bulk load writes. -/
theorem State.setRegs_setI_eq (s : State) (w : Vector Byte 16) (j : Word) :
    (s.setRegs w).setI j = { s with v := ((s.setRegs w).setI j).v, i := ((s.setRegs w).setI j).i } := rfl

section
variable {x : Nibble} {s : State}

/-- After a bulk store `V[r]` stands at `I + r`. -/
theorem State.storeBytes_regsUpTo_readByte (a : Nat) {r : Nibble} (hr : r.toNat ≤ x.toNat) :
    (s.storeBytes a (s.regsUpTo x)).readByte (a + r.toNat) = s.reg r := by
  have hlen : r.toNat < (s.regsUpTo x).length := by rw [s.regsUpTo_length]; omega
  rw [s.storeBytes_readByte_add a hlen, s.regsUpTo_getElem hlen]

/-- After a bulk load `V[r]` is the byte at `I + r` up to `x`, and as before above it. -/
theorem State.setRegs_loadedRegs_reg (r : Nibble) :
    (s.setRegs (s.loadedRegs x)).reg r =
      if r.toNat ≤ x.toNat then s.readByte (s.i.toNat + r.toNat) else s.reg r := by
  simp [State.reg, State.loadedRegs]

end

/-- Settles O33: a run of stores of the registers up to `x`, then the new `I`. -/
theorem bulkStoreStoresAndAdvances : Obligations.BulkStoreStoresAndAdvances := by
  unfold Obligations.BulkStoreStoresAndAdvances
  intro x s
  refine ⟨decodeWord_encode (i := .ldMemVx x) rfl, fun h => ⟨_, exec_ldMemVx_inside h, ?_⟩,
    dataRangesOutsideMemoryFault _ s _ (.inr (.inr (.inl ⟨x, rfl, rfl⟩)))⟩
  refine ⟨fun r hr => s.storeBytes_regsUpTo_readByte _ hr, s.indexPast_toNat x, ?_, ?_⟩
  · rw [← s.regsUpTo_length x]
    exact s.storeBytes_sameBytesOutside _ _
  · exact congrArg (State.setI · (s.indexPast x)) (s.storeBytes_eq _ _)

/-- Settles O34: the register file is written whole, then `I`; memory is not. -/
theorem bulkLoadLoadsAndAdvances : Obligations.BulkLoadLoadsAndAdvances := by
  unfold Obligations.BulkLoadLoadsAndAdvances
  intro x s
  refine ⟨decodeWord_encode (i := .ldVxMem x) rfl, fun h => ⟨_, exec_ldVxMem_inside h, ?_⟩,
    dataRangesOutsideMemoryFault _ s _ (.inr (.inr (.inr ⟨x, rfl, rfl⟩)))⟩
  refine ⟨fun r hr => ?_, fun r hr => ?_, s.indexPast_toNat x, s.setRegs_setI_eq _ _, fun a => ?_⟩
  · rw [State.setI_reg, State.setRegs_loadedRegs_reg, if_pos hr]
  · rw [State.setI_reg, State.setRegs_loadedRegs_reg, if_neg hr]
  · rw [State.setI_readByte, State.setRegs_readByte]

/-- Settles O35: the load reads back the bytes of O33's store, by O34. -/
theorem bulkLoadRestoresABulkStore : Obligations.BulkLoadRestoresABulkStore := by
  unfold Obligations.BulkLoadRestoresABulkStore
  intro x s w h
  obtain ⟨-, hstore, -⟩ := bulkStoreStoresAndAdvances x s
  obtain ⟨t, et, hstored, hti, -⟩ := hstore h
  obtain ⟨-, hload, -⟩ := bulkLoadLoadsAndAdvances x { t with v := w, i := s.i }
  obtain ⟨u, eu, hloaded, -, hui, hframe, -⟩ := hload h
  exact ⟨t, u, et, eu, fun r hr => (hloaded r hr).trans (hstored r hr), BitVec.eq_of_toNat_eq (hui.trans hti.symm),
    by rw [hframe]⟩

/-- Settles O36: the two bytes of the word are those O33's store put there. -/
theorem storedBytesAreTheNextWord : Obligations.StoredBytesAreTheNextWord := by
  unfold Obligations.StoredBytesAreTheNextWord
  intro x r r' s h hr' hsucc
  obtain ⟨-, hstore, -⟩ := bulkStoreStoresAndAdvances x s
  obtain ⟨t, et, hstored, -⟩ := hstore h
  have hhi := hstored r (by omega)
  have hlo := hstored r' hr'
  rw [hsucc] at hlo
  exact ⟨t, et, congrArg₂ wordOfBytes hhi hlo⟩

end Sys2Proof.Machine
end

section
/-! SUPPORT. The family of spec/30_encoding.md, first part: the words each row of the opcode table takes (O5), the decoder's
answer as a well-formed instruction (O6), sample words (O7). -/

namespace Sys2Proof

/-! ## What a mask asks of the fields of a word (R50, R57) -/

theorem and_opNMask (w : Word) : w &&& 0xF00F = wordXY (opOf w) 0 0 (nOf w) := by
  unfold opOf nOf wordXY; ext k hk
  have : k < 16 := hk
  interval_cases k <;> simp

theorem and_opKkMask (w : Word) : w &&& 0xF0FF = wordXK (opOf w) 0 (kkOf w) := by
  unfold opOf kkOf wordXK; ext k hk
  have : k < 16 := hk
  interval_cases k <;> simp

/-! The fields of `v` are written as `simp` computes them where `v` is a literal, and as the decoder's matches read them. -/

theorem and_opMask_eq_iff {w v : Word} (hv : v &&& 0xF000 = v) :
    w &&& 0xF000#16 = v ↔ (opOf w).toNat = (v.extractLsb' 12 4).toNat := by
  rw [BitVec.toNat_inj]
  refine ⟨fun h => ?_, fun (hop : opOf w = opOf v) => ?_⟩
  · rw [← h, show w &&& 0xF000#16 = _ from and_opMask w]
    exact (opOf_wordA ..).symm
  · rw [show w &&& 0xF000#16 = _ from and_opMask w, hop, ← and_opMask, hv]

theorem and_opNMask_eq_iff {w v : Word} (hv : v &&& 0xF00F = v) :
    w &&& 0xF00F#16 = v ↔ (opOf w).toNat = (v.extractLsb' 12 4).toNat ∧ (nOf w).toNat = (v.extractLsb' 0 4).toNat := by
  rw [BitVec.toNat_inj, BitVec.toNat_inj]
  refine ⟨fun h => ?_, fun ⟨(hop : opOf w = opOf v), (hn : nOf w = nOf v)⟩ => ?_⟩
  · rw [← h, show w &&& 0xF00F#16 = _ from and_opNMask w]
    exact ⟨(opOf_wordXY ..).symm, (nOf_wordXY ..).symm⟩
  · rw [show w &&& 0xF00F#16 = _ from and_opNMask w, hop, hn, ← and_opNMask, hv]

theorem and_opKkMask_eq_iff {w v : Word} (hv : v &&& 0xF0FF = v) :
    w &&& 0xF0FF#16 = v ↔ (opOf w).toNat = (v.extractLsb' 12 4).toNat ∧ (kkOf w).toNat = (v.extractLsb' 0 8).toNat := by
  rw [BitVec.toNat_inj, BitVec.toNat_inj]
  refine ⟨fun h => ?_, fun ⟨(hop : opOf w = opOf v), (hkk : kkOf w = kkOf v)⟩ => ?_⟩
  · rw [← h, show w &&& 0xF0FF#16 = _ from and_opKkMask w]
    exact ⟨(opOf_wordXK ..).symm, (kkOf_wordXK ..).symm⟩
  · rw [show w &&& 0xF0FF#16 = _ from and_opKkMask w, hop, hkk, ← and_opKkMask, hv]

/-! ## The row of a decoded word -/

/-- A word some row takes decodes to an instruction of that row. -/
theorem decodeWord_row_of_takes {w : Word} {i : Instr} {r : Row} (hr : i.row = some r) (h : r.takes w = true) :
    (decodeWord w).row = some r := by
  cases i with
  | nop => cases hr
  | sys =>
    cases hr
    simp (disch := decide) [Row.takes, and_opMask_eq_iff, and_opKkMask_eq_iff] at h
    obtain ⟨hop, hcls, hret⟩ := h
    simp only [decodeWord, decodeFamily0, hop]
    split
    · next h => exact absurd h (hcls hop)
    · next h => exact absurd h (hret hop)
    · rfl
  | _ =>
    cases hr
    simp (disch := decide) [Row.takes, and_opMask_eq_iff, and_opKkMask_eq_iff, and_opNMask_eq_iff] at h
    simp [decodeWord, decodeFamily0, decodeFamily8, decodeFamilyE, decodeFamilyF, h, Instr.row]

/-- `i` may be what `w` decodes to: it is well formed, and its row takes `w`, or it has none and keeps `w`. -/
def Instr.Fits (i : Instr) (w : Word) : Prop :=
  i.wellFormed = true ∧ (∀ r, i.row = some r → r.takes w = true) ∧ (i.row = none → i = .nop w)

theorem Instr.fits_of_takes {i : Instr} {r : Row} {w : Word} (hwf : i.wellFormed = true) (hr : i.row = some r)
    (h : r.takes w = true) : i.Fits w :=
  ⟨hwf, fun _ hr' => Option.some.inj (hr.symm.trans hr') ▸ h, fun hn => absurd (hr.symm.trans hn) nofun⟩

theorem Instr.nop_fits {w : Word} (h : isHole w = true) : (Instr.nop w).Fits w := ⟨h, nofun, fun _ => rfl⟩

theorem decodeFamily0_fits {w : Word} (hop : (opOf w).toNat = 0x0) : (decodeFamily0 w).Fits w := by
  have hlow : (addrOf w).setWidth 8 = kkOf w := by
    unfold addrOf kkOf; ext k hk
    interval_cases k <;> simp
  unfold decodeFamily0
  split
  case h_3 hcls hret =>
    refine Instr.fits_of_takes ((isSysAddr_iff _).2 ?_) rfl ?_
    · simpa [hlow, ← BitVec.toNat_inj] using ⟨hcls, hret⟩
    · simpa (disch := decide) [Row.takes, and_opMask_eq_iff, and_opKkMask_eq_iff, hop] using ⟨hcls, hret⟩
  all_goals
    rename_i hkk
    exact Instr.fits_of_takes rfl rfl (by
      simp (disch := decide) [Row.takes, and_opKkMask_eq_iff, hop, hkk])

theorem decodeFamily8_fits {w : Word} (hop : (opOf w).toNat = 0x8) : (decodeFamily8 w).Fits w := by
  unfold decodeFamily8
  split
  case h_10 =>
    refine Instr.nop_fits ((isHole_iff w).2 (.inl ⟨BitVec.eq_of_toNat_eq hop, ?_⟩))
    generalize nOf w = n at *
    revert n
    decide
  all_goals
    rename_i hn
    exact Instr.fits_of_takes rfl rfl (by
      simp (disch := decide) [Row.takes, and_opNMask_eq_iff, hop, hn])

theorem decodeFamilyE_fits {w : Word} (hop : (opOf w).toNat = 0xE) : (decodeFamilyE w).Fits w := by
  unfold decodeFamilyE
  split
  case h_3 =>
    refine Instr.nop_fits ((isHole_iff w).2 (.inr (.inl ⟨BitVec.eq_of_toNat_eq hop, ?_⟩)))
    simp_all [← BitVec.toNat_inj]
  all_goals
    rename_i hkk
    exact Instr.fits_of_takes rfl rfl (by
      simp (disch := decide) [Row.takes, and_opKkMask_eq_iff, hop, hkk])

theorem decodeFamilyF_fits {w : Word} (hop : (opOf w).toNat = 0xF) : (decodeFamilyF w).Fits w := by
  unfold decodeFamilyF
  split
  case h_10 =>
    refine Instr.nop_fits ((isHole_iff w).2 (.inr (.inr ⟨BitVec.eq_of_toNat_eq hop, ?_⟩)))
    simp_all [← BitVec.toNat_inj]
  all_goals
    rename_i hkk
    exact Instr.fits_of_takes rfl rfl (by
      simp (disch := decide) [Row.takes, and_opKkMask_eq_iff, hop, hkk])

/-- Every word decodes to an instruction that fits it. -/
theorem decodeWord_fits (w : Word) : (decodeWord w).Fits w := by
  unfold decodeWord
  split
  case h_1 hop => exact decodeFamily0_fits hop
  case h_9 hop => exact decodeFamily8_fits hop
  case h_15 hop => exact decodeFamilyE_fits hop
  case h_16 =>
    have hop : (opOf w).toNat = 0xF := by
      have := (opOf w).isLt
      grind
    exact decodeFamilyF_fits hop
  all_goals
    rename_i hop
    exact Instr.fits_of_takes rfl rfl (by
      simp (disch := decide) [Row.takes, and_opMask_eq_iff, hop])

/-- Settles O5: the decoded instruction fits its word, and a row that takes a word is the row it decodes to. -/
theorem eachWordHasOneRow : Obligations.EachWordHasOneRow := by
  unfold Obligations.EachWordHasOneRow
  intro w
  obtain ⟨hwf, htakes, hnone⟩ := decodeWord_fits w
  refine ⟨fun i r hr => ⟨decodeWord_row_of_takes hr, htakes r⟩, ⟨decodeWord_of_isHole, fun h => ?_⟩, fun h => ?_⟩
  · rwa [h] at hwf
  · cases hr : (decodeWord w).row with
    | some r => exact ⟨r, rfl⟩
    | none =>
      rw [hnone hr] at hwf
      exact absurd (hwf.symm.trans h) nofun

/-- Settles O6: the decoded instruction fits its word, and `decode` takes any two bytes as a word. -/
theorem everyWordDecodesWellFormed : Obligations.EveryWordDecodesWellFormed := by
  unfold Obligations.EveryWordDecodesWellFormed
  exact ⟨fun w => (decodeWord_fits w).1, fun _ _ _ => rfl⟩

/-- Settles O7: each word is a closed term. -/
theorem sampleWordsDecode : Obligations.SampleWordsDecode := by
  unfold Obligations.SampleWordsDecode
  decide

end Sys2Proof
end

section
/-! SUPPORT. The family of spec/30_encoding.md, second part: Cycles that change little. The faulted Cycle (O11), the no-ops
(O15, O16), the snapshot (O14), the first Cycle of a key-wait (O46), the Cycle that faults (O12). -/

namespace Sys2Proof.Machine

/-! ## A Cycle that changes nothing, and the no-ops (R54, R60, R61, R66) -/

/-- Settles O11: the request is taken off and the Cycle does nothing. -/
theorem faultedCycleChangesNothing : Obligations.FaultedCycleChangesNothing := by
  unfold Obligations.FaultedCycleChangesNothing
  intro s hnext hf
  rw [step_of_cycleNext hnext]
  exact cycle_of_fault (s := s.popRequest) hf

/-- Settles O15: the meanings are the identity, and the words are those the decoder gives to SYS and to the default arm. -/
theorem noOpsChangeNothing : Obligations.NoOpsChangeNothing := by
  unfold Obligations.NoOpsChangeNothing
  exact ⟨fun _ _ => rfl, fun _ _ => rfl, fun _ => decodeWord_sys, fun _ => decodeWord_of_isHole⟩

/-- Settles O16: the Cycle executes the word at `PC` (O8), which is a no-op (O15). -/
theorem unmatchedWordsOnlyAdvance : Obligations.UnmatchedWordsOnlyAdvance := by
  unfold Obligations.UnmatchedWordsOnlyAdvance
  intro s hnext hsafe hpc hword
  obtain ⟨hsys, hnop, -, hhole⟩ := noOpsChangeNothing
  rw [stepRunsTheDecodedInstruction s hnext hsafe hpc]
  rcases hword with ⟨addr, hw⟩ | hw
  · rw [hw]
    exact hsys addr _
  · rw [hhole _ hw]
    exact hnop _ _

/-! ## The snapshot (R55) -/

/-- No instruction writes the live latch or the snapshot (R23, R55). -/
theorem exec_keys_snap {i : Instr} {s t : State} (e : exec i s = .next t) : t.keys = s.keys ∧ t.snap = s.snap := by
  obtain ⟨hkeys, hsnap, -⟩ : Element.unwritten.Agree s t := exec_mayWrite i s t e _ id
  exact ⟨hkeys, hsnap⟩

/-- A Cycle takes the snapshot where the key-wait is idle, and no other part of it writes the snapshot or the latch. -/
theorem cycle_snap_keys {s t : State} (hs : s.Safe) (e : cycle s = .next t) :
    t.snap = (if s.kw = .idle then s.keys else s.snap) ∧ t.keys = s.keys := by
  by_cases hpc : s.FetchOk
  · rw [cycle_of_fetchOk hs hpc] at e
    obtain ⟨hkeys, hsnap⟩ := exec_keys_snap e
    exact ⟨hsnap.trans s.snapshot_snap, hkeys.trans s.snapshot_keys⟩
  · cases (cycle_of_not_fetchOk hs hpc).symm.trans e
    exact ⟨s.snapshot_snap, s.snapshot_keys⟩

/-- Settles O14: the step is a Cycle of the state with the request taken off. -/
theorem snapshotIsTakenAtTheStartOfACycle : Obligations.SnapshotIsTakenAtTheStartOfACycle := by
  unfold Obligations.SnapshotIsTakenAtTheStartOfACycle
  intro s t hnext hsafe e
  rw [step_of_cycleNext hnext] at e
  exact cycle_snap_keys (s := s.popRequest) hsafe e

/-! ## The key-wait with nothing to detect (R112, R113) -/

theorem State.changedKey_of_keys_eq_snap {s : State} (h : s.keys = s.snap) : s.changedKey = none := by
  simp [State.changedKey, h]

/-- With the latch as the snapshot has it, a key-wait that seeks a key awaits a press, at its own address. -/
theorem exec_ldVxK_of_keys_eq_snap {s : State} (x : Nibble) (hkw : s.kw ≠ .awaitingRelease) (h : s.keys = s.snap) :
    exec (.ldVxK x) s = .next { s with kw := .awaitingPress, pc := s.pc - 2 } := by
  have hseek : s.seekKey = { s with kw := .awaitingPress, pc := s.pc - 2 } := by
    rw [State.seekKey, State.changedKey_of_keys_eq_snap h]
    rfl
  simp only [exec, execLdVxK]
  split
  · rw [hseek]
  · rw [hseek]
  · contradiction

/-- Settles O46: the Cycle has just made the snapshot the latch, so no key differs from it. -/
theorem firstKeyWaitCycleDetectsNothing : Obligations.FirstKeyWaitCycleDetectsNothing := by
  unfold Obligations.FirstKeyWaitCycleDetectsNothing
  intro s x hnext hsafe hpc hword hkw
  rw [stepRunsTheDecodedInstruction s hnext hsafe hpc, hword, if_pos hkw]
  have hwait := exec_ldVxK_of_keys_eq_snap (s := { s with inbox := s.inbox.tail, snap := s.keys, pc := s.pc + 2 }) x
    (by simp [hkw]) rfl
  simpa only [BitVec.add_sub_cancel] using hwait

/-! ## A Cycle that faults (R121, R122) -/

/-- An instruction that records a fault where there was none has entered it at `PC - 2` and done nothing else. -/
theorem exec_eq_faulted {i : Instr} {s t : State} (hs : s.Safe) (e : exec i s = .next t) (hf : t.fault ≠ .none) :
    t = s.faulted t.fault (s.pc - 2) (if t.fault = .addressFault then max s.i.toNat 0x1000 else 0) := by
  obtain ⟨t', e', hcause, hfaulted⟩ := instructionsFaultExactlyWhenTheirConditionHolds i s hs
  cases e'.symm.trans e
  rw [← hcause] at hfaulted
  exact hfaulted hf

/-- A Cycle that records a fault where there was none has taken the snapshot, entered the fault at the address `PC` had, and
done nothing else. -/
theorem cycle_eq_faulted {s t : State} (hs : s.Safe) (e : cycle s = .next t) (hf : t.fault ≠ .none) :
    ∃ addr, t = s.snapshot.faulted t.fault s.pc addr ∧ (t.fault ≠ .addressFault → addr = 0) := by
  by_cases hpc : s.FetchOk
  · rw [cycle_of_fetchOk hs hpc] at e
    have hsafe : s.snapshot.advance.Safe := by rw [State.snapshot_eq]; exact hs
    have ht := exec_eq_faulted hsafe e hf
    simp only [State.advance_eq, State.setPc_pc, State.snapshot_pc, BitVec.add_sub_cancel] at ht
    exact ⟨_, ht, fun h => if_neg h⟩
  · cases (cycle_of_not_fetchOk hs hpc).symm.trans e
    exact ⟨_, rfl, fun h => absurd rfl h⟩

/-- Settles O12: whether the fetch faults or the instruction, the state is the one fault entry gives. -/
theorem faultsArePrecise : Obligations.FaultsArePrecise := by
  unfold Obligations.FaultsArePrecise
  intro s t hnext hsafe e hf
  obtain ⟨hsnap, -⟩ := snapshotIsTakenAtTheStartOfACycle s t hnext hsafe e
  rw [step_of_cycleNext hnext] at e
  obtain ⟨addr, ht, haddr⟩ := cycle_eq_faulted (s := s.popRequest) hsafe e hf
  have hta : t.faultAddr = addr := congrArg State.faultAddr ht
  refine ⟨?_, hsnap, fun h => hta.trans (haddr h)⟩
  rw [hsnap, hta]
  exact ht.trans (by rw [State.snapshot_eq]; rfl)

end Sys2Proof.Machine
end

section
/-! SUPPORT. The family of spec/40_flow.md: RET and CALL on the call stack (O17, O18, O19), the jumps (O20) and the end of a
run (O58), the skips (O21, O22). -/

namespace Sys2Proof.Machine

/-! ## The call stack (R67, R69, R75) -/

/-- RET with entries in use takes the top one off into `PC` (R67). -/
theorem exec_ret_of_nonempty {s : State} {k : Fin 16} (hsp : s.sp.val = k.val + 1) :
    exec .ret s = .next { s with pc := s.stack[k], sp := k.castSucc } := by
  rcases s.pop_cases with ⟨_, e⟩ | ⟨h, -⟩
  · simp only [exec, execRet, e, hsp, Nat.add_sub_cancel]
    rfl
  · omega

/-- CALL with room on the stack writes the advanced `PC` to the first free entry and goes to its target (R69). -/
theorem exec_call_of_room {s : State} {k : Fin 16} (addr : Addr) (hsp : s.sp.val = k.val) :
    exec (.call addr) s = .next { s with stack := s.stack.set k s.pc, sp := k.succ, pc := zextAddr addr } := by
  rcases s.push_cases s.pc with ⟨_, e⟩ | ⟨h, -⟩
  · simp only [exec, execCall, e, hsp]
    rfl
  · omega

theorem zextAddr_toNat (addr : Addr) : (zextAddr addr).toNat = addr.toNat :=
  BitVec.toNat_setWidth_of_le (by decide)

/-- Settles O17: the entry on top of the stack, or the fault entry of an empty one. -/
theorem retPopsOrFaults : Obligations.RetPopsOrFaults := by
  unfold Obligations.RetPopsOrFaults
  intro s ignored
  refine ⟨by simp [decodeWord, decodeFamily0], fun k hsp => ?_, fun hsp => ?_⟩
  · exact ⟨_, exec_ret_of_nonempty hsp, rfl, rfl, rfl, fun _ => rfl⟩
  · exact exec_ret_of_empty (congrArg Fin.val hsp)

/-- Settles O18: the first free entry of the stack, or the fault entry of a full one. -/
theorem callPushesOrFaults : Obligations.CallPushesOrFaults := by
  unfold Obligations.CallPushesOrFaults
  intro addr s
  refine ⟨decodeWord_encode (i := .call addr) rfl, fun k hsp => ?_, exec_call_of_full addr⟩
  refine ⟨_, exec_call_of_room addr hsp, ?_, fun j hj => ?_, rfl, zextAddr_toNat addr, rfl, fun _ => rfl⟩
  · exact Vector.getElem_set_self _
  · exact Vector.getElem_set_ne k.isLt j.isLt (Fin.val_ne_of_ne hj.symm)

/-- Settles O19: the RET takes off the entry the CALL wrote. -/
theorem returnUndoesCall : Obligations.ReturnUndoesCall := by
  unfold Obligations.ReturnUndoesCall
  intro addr s u hroom
  let k : Fin 16 := ⟨s.sp.val, hroom⟩
  refine ⟨_, exec_call_of_room (k := k) addr rfl, fun hsp hstack => ?_⟩
  refine ⟨_, exec_ret_of_nonempty (k := k) (congrArg Fin.val hsp), ?_, rfl⟩
  exact (hstack k k.val.lt_succ_self).trans (Vector.getElem_set_self _)

/-! ## The jumps and the end of a run (R68, R74, R135) -/

/-- The target of JP V0 never wraps (R74). -/
theorem State.indexedTarget_toNat (s : State) (addr : Addr) :
    (s.indexedTarget addr).toNat = addr.toNat + (s.reg 0).toNat := by
  have hreg : ((s.reg 0).zeroExtend 16).toNat = (s.reg 0).toNat := BitVec.toNat_setWidth_of_le (by decide)
  rw [State.indexedTarget, BitVec.toNat_add, zextAddr_toNat, hreg]
  omega

/-- Settles O20: each jump writes its target to `PC`. -/
theorem jumpsGoToTheirTarget : Obligations.JumpsGoToTheirTarget := by
  unfold Obligations.JumpsGoToTheirTarget
  intro addr s
  refine ⟨decodeWord_encode (i := .jp addr) rfl, decodeWord_encode (i := .jpV0 addr) rfl, ?_, ?_⟩
  · exact ⟨_, rfl, zextAddr_toNat addr, rfl, fun _ => rfl⟩
  · exact ⟨_, rfl, s.indexedTarget_toNat addr, rfl, fun _ => rfl⟩

/-- An address inside memory is its own low 12 bits. -/
theorem zextAddr_setWidth {w : Word} (h : w.toNat < 0x1000) : zextAddr (w.setWidth 12) = w := by
  apply BitVec.eq_of_toNat_eq
  rw [zextAddr_toNat, BitVec.toNat_setWidth, Nat.mod_eq_of_lt h]

/-- Settles O58: the Cycle executes the jump (O8), which undoes the advance. -/
theorem selfJumpEndsARun : Obligations.SelfJumpEndsARun := by
  unfold Obligations.SelfJumpEndsARun
  intro s hhalt hnext
  obtain ⟨hsafe, hpc, hword⟩ := hhalt
  have hdecode : decodeWord (s.wordAt s.pc.toNat) = .jp (s.pc.setWidth 12) := by
    rw [hword]
    exact decodeWord_encode (i := .jp _) rfl
  have hstep : step s =
      .next { s with inbox := s.inbox.tail, snap := if s.kw = .idle then s.keys else s.snap } := by
    rw [stepRunsTheDecodedInstruction s hnext hsafe hpc, hdecode, exec, execJp, zextAddr_setWidth (by omega)]
    rfl
  exact ⟨_, hstep, rfl, hsafe, hpc, hword⟩

/-! ## The skips (R65, R70 to R73) -/

/-- An instruction that is a skip adds 2 to `PC`, modulo 65536, exactly when its condition holds, and changes nothing else. -/
theorem exec_skip {i : Instr} {s : State} {c : Bool} {p : Prop} [Decidable p] (hexec : exec i s = .next (s.skipIf c))
    (hc : c = true ↔ p) :
    ∃ t, exec i s = .next t ∧ t.pc.toNat = (if p then (s.pc.toNat + 2) % 65536 else s.pc.toNat) ∧
      t = { s with pc := t.pc } ∧ SameBytes s t := by
  refine ⟨_, hexec, ?_, ?_, s.skipIf_readByte c⟩
  · simp only [State.skipIf_pc, hc]
    split
    · exact BitVec.toNat_add ..
    · rfl
  · cases c <;> rfl

/-- Settles O21: both instructions are skips, on equality and on difference. -/
theorem skipsOnImmediate : Obligations.SkipsOnImmediate := by
  unfold Obligations.SkipsOnImmediate
  intro x kk s
  exact ⟨decodeWord_encode (i := .seVxKk x kk) rfl, decodeWord_encode (i := .sneVxKk x kk) rfl,
    exec_skip rfl beq_iff_eq, exec_skip rfl bne_iff_ne⟩

/-- Settles O22: both instructions are skips, and the decoder does not read the low nibble of their words (R57). -/
theorem skipsOnRegisters : Obligations.SkipsOnRegisters := by
  unfold Obligations.SkipsOnRegisters
  intro x y n s
  exact ⟨by simp [decodeWord], by simp [decodeWord], exec_skip rfl beq_iff_eq, exec_skip rfl bne_iff_ne⟩

end Sys2Proof.Machine
end

section
/-! SUPPORT. The family of spec/41_alu.md: the instructions that write one register and no flag (O23, O24, O29), and those of
family 8 that write VF and then their result (O25 to O28). -/

namespace Sys2Proof.Machine

/-! ## What a register write leaves unchanged (R11, R79) -/

theorem State.setReg_frame (s : State) (x : Nibble) (b : Byte) :
    SameRegsBut s (s.setReg x b) (· = x) ∧ s.setReg x b = { s with v := (s.setReg x b).v } ∧
      SameBytes s (s.setReg x b) :=
  ⟨fun _ hr => s.setReg_reg_ne b hr, rfl, fun _ => rfl⟩

theorem State.setFlagThenReg_reg_same (s : State) (flag : Byte) (x : Nibble) (b : Byte) :
    (s.setFlagThenReg flag x b).reg x = b :=
  State.setReg_reg_same _ x b

/-- The flag stays in VF unless the result is written over it (R79, decision D8 of the spec). -/
theorem State.setFlagThenReg_reg_vf (s : State) (flag : Byte) {x : Nibble} (b : Byte) (hx : x ≠ vf) :
    (s.setFlagThenReg flag x b).reg vf = flag :=
  (State.setReg_reg_ne _ b hx.symm).trans (s.setReg_reg_same vf flag)

theorem State.setFlagThenReg_frame (s : State) (flag : Byte) (x : Nibble) (b : Byte) :
    SameRegsBut s (s.setFlagThenReg flag x b) (fun r => r = x ∨ r = vf) ∧
      s.setFlagThenReg flag x b = { s with v := (s.setFlagThenReg flag x b).v } ∧
      SameBytes s (s.setFlagThenReg flag x b) := by
  refine ⟨fun r hr => ?_, rfl, fun _ => rfl⟩
  obtain ⟨hx, hvf⟩ := not_or.1 hr
  exact (State.setReg_reg_ne _ b hx).trans (s.setReg_reg_ne flag hvf)

/-! ## The results and the flags as numbers (R78, R84 to R88) -/

theorem sum8_toNat (a b : Byte) : (sum8 a b).toNat = (a.toNat + b.toNat) % 256 :=
  BitVec.toNat_ofNat ..

theorem diff8_toNat (a b : Byte) : ((diff8 a b).toNat : Int) = (a.toNat - b.toNat : Int) % 256 := by
  have hb := b.isLt
  rw [diff8, BitVec.toNat_ofNat]
  omega

theorem carry_eq (a b : Byte) : carry a b = if a.toNat + b.toNat > 255 then 1 else 0 := by
  simp [carry, flagByte]

theorem noBorrow_eq (a b : Byte) : noBorrow a b = if a.toNat ≥ b.toNat then 1 else 0 := by
  simp [noBorrow, flagByte]

theorem lowBit_toNat (a : Byte) : (lowBit a).toNat = a.toNat % 2 := by
  rw [lowBit, BitVec.toNat_and]
  exact Nat.and_one_is_mod _

theorem highBit_toNat (a : Byte) : (highBit a).toNat = a.toNat / 128 := by
  rw [highBit, BitVec.toNat_ushiftRight, Nat.shiftRight_eq_div_pow]

theorem ushiftRight_one_toNat (a : Byte) : (a >>> 1).toNat = a.toNat / 2 := by
  rw [BitVec.toNat_ushiftRight, Nat.shiftRight_eq_div_pow, pow_one]

theorem shiftLeft_one_toNat (a : Byte) : (a <<< 1).toNat = a.toNat * 2 % 256 := by
  rw [BitVec.toNat_shiftLeft, Nat.shiftLeft_eq, pow_one]

/-! ## One register and no flag (R77, R78, R80, R89) -/

/-- Settles O24: one register is written, with the value of the other. -/
theorem registerCopy : Obligations.RegisterCopy := by
  unfold Obligations.RegisterCopy
  intro x y s
  exact ⟨decodeWord_encode (i := .ldVxVy x y) rfl, _, rfl, s.setReg_reg_same x _, s.setReg_frame x _⟩

/-- Settles O23: one register is written, with the immediate or the sum. -/
theorem immediateLoadAndAdd : Obligations.ImmediateLoadAndAdd := by
  unfold Obligations.ImmediateLoadAndAdd
  intro x kk s
  refine ⟨decodeWord_encode (i := .ldVxKk x kk) rfl, decodeWord_encode (i := .addVxKk x kk) rfl, ?_, ?_⟩
  · exact ⟨_, rfl, s.setReg_reg_same x kk, s.setReg_frame x kk⟩
  · refine ⟨_, rfl, ?_, s.setReg_frame x _⟩
    rw [State.setReg_reg_same, sum8_toNat]

/-- Settles O29: a draw is counted, and then one register is written. -/
theorem randomByteIsMasked : Obligations.RandomByteIsMasked := by
  unfold Obligations.RandomByteIsMasked
  intro x kk s
  refine ⟨decodeWord_encode (i := .rnd x kk) rfl, s.rndWith (Config.randomByte s.draws) x kk, rfl, fun b _ => ?_, rfl,
    fun r hr => State.setReg_reg_ne s.countDraw _ hr, rfl, fun _ => rfl⟩
  rw [State.rndWith_eq, State.setReg_reg_same, BitVec.getLsbD_and]

/-! ## A flag and then the result (R79, R81 to R88) -/

/-- An instruction that clears VF and then writes a bitwise result. -/
theorem exec_logic {i : Instr} {s : State} {x y : Nibble} {result : Byte} {op : Bool → Bool → Bool}
    (hexec : exec i s = .next (s.setFlagThenReg 0 x result))
    (hbits : ∀ b, result.getLsbD b = op ((s.reg x).getLsbD b) ((s.reg y).getLsbD b)) :
    ∃ t, exec i s = .next t ∧
      (∀ b < 8, (t.reg x).getLsbD b = op ((s.reg x).getLsbD b) ((s.reg y).getLsbD b)) ∧
      (x ≠ vf → t.reg vf = 0) ∧ SameRegsBut s t (fun r => r = x ∨ r = vf) ∧
      t = { s with v := t.v } ∧ SameBytes s t := by
  refine ⟨_, hexec, fun b _ => ?_, s.setFlagThenReg_reg_vf 0 result, s.setFlagThenReg_frame 0 x result⟩
  rw [State.setFlagThenReg_reg_same, hbits]

/-- Settles O25: each is a logic instruction of its operation. -/
theorem logicClearsVfThenWritesTheResult : Obligations.LogicClearsVfThenWritesTheResult := by
  unfold Obligations.LogicClearsVfThenWritesTheResult
  intro x y s
  refine ⟨decodeWord_encode (i := .orVxVy x y) rfl, decodeWord_encode (i := .andVxVy x y) rfl,
    decodeWord_encode (i := .xorVxVy x y) rfl, fun i op hop => ?_⟩
  rcases hop with ⟨rfl, rfl⟩ | ⟨rfl, rfl⟩ | ⟨rfl, rfl⟩
  · exact exec_logic rfl fun _ => BitVec.getLsbD_or
  · exact exec_logic rfl fun _ => BitVec.getLsbD_and
  · exact exec_logic rfl fun _ => BitVec.getLsbD_xor

/-- Settles O26: the carry is written and then the sum. -/
theorem addSetsCarryThenSum : Obligations.AddSetsCarryThenSum := by
  unfold Obligations.AddSetsCarryThenSum
  intro x y s
  refine ⟨decodeWord_encode (i := .addVxVy x y) rfl, _, rfl, ?_, fun hx => ?_, s.setFlagThenReg_frame _ x _⟩
  · rw [State.setFlagThenReg_reg_same, sum8_toNat]
  · rw [s.setFlagThenReg_reg_vf _ _ hx, carry_eq]

/-- An instruction that writes the no-borrow flag of `a - b` and then the difference. -/
theorem exec_subtract {i : Instr} {s : State} {x : Nibble} {a b : Byte}
    (hexec : exec i s = .next (s.setFlagThenReg (noBorrow a b) x (diff8 a b))) :
    ∃ t, exec i s = .next t ∧ ((t.reg x).toNat : Int) = (a.toNat - b.toNat : Int) % 256 ∧
      (x ≠ vf → t.reg vf = if a.toNat ≥ b.toNat then 1 else 0) ∧
      SameRegsBut s t (fun r => r = x ∨ r = vf) ∧ t = { s with v := t.v } ∧ SameBytes s t := by
  refine ⟨_, hexec, ?_, fun hx => ?_, s.setFlagThenReg_frame _ x _⟩
  · rw [State.setFlagThenReg_reg_same, diff8_toNat]
  · rw [s.setFlagThenReg_reg_vf _ _ hx, noBorrow_eq]

/-- Settles O27: SUBN subtracts with the operands reversed. -/
theorem subtractsSetNoBorrowThenDifference : Obligations.SubtractsSetNoBorrowThenDifference := by
  unfold Obligations.SubtractsSetNoBorrowThenDifference
  intro x y s
  exact ⟨decodeWord_encode (i := .subVxVy x y) rfl, decodeWord_encode (i := .subnVxVy x y) rfl,
    exec_subtract rfl, exec_subtract rfl⟩

/-- An instruction that writes a flag and then a result, both given as numbers. -/
theorem exec_flagThenResult {i : Instr} {s : State} {x : Nibble} {flag result : Byte} {m n : Nat}
    (hexec : exec i s = .next (s.setFlagThenReg flag x result)) (hresult : result.toNat = m) (hflag : flag.toNat = n) :
    ∃ t, exec i s = .next t ∧ (t.reg x).toNat = m ∧ (x ≠ vf → (t.reg vf).toNat = n) ∧
      SameRegsBut s t (fun r => r = x ∨ r = vf) ∧ t = { s with v := t.v } ∧ SameBytes s t := by
  refine ⟨_, hexec, ?_, fun hx => ?_, s.setFlagThenReg_frame flag x result⟩
  · rw [State.setFlagThenReg_reg_same, hresult]
  · rw [s.setFlagThenReg_reg_vf flag result hx, hflag]

/-- Settles O28: the bit shifted out is written and then the shifted byte; the decoder does not read the `y` field of these
words (R57). -/
theorem shiftsSetTheBitShiftedOut : Obligations.ShiftsSetTheBitShiftedOut := by
  unfold Obligations.ShiftsSetTheBitShiftedOut
  intro x y s
  exact ⟨by simp [decodeWord, decodeFamily8], by simp [decodeWord, decodeFamily8],
    exec_flagThenResult rfl (ushiftRight_one_toNat _) (lowBit_toNat _),
    exec_flagThenResult rfl (shiftLeft_one_toNat _) (highBit_toNat _)⟩

end Sys2Proof.Machine
end

section
/-! SUPPORT. The family of spec/42_index_memory.md: the instructions that write the index register and access no memory (O30). -/

namespace Sys2Proof.Machine

/-! ## The values written to the index register (R93, R94) -/

theorem State.reg_zeroExtend_toNat (s : State) (x : Nibble) : ((s.reg x).zeroExtend 16).toNat = (s.reg x).toNat :=
  BitVec.toNat_setWidth_of_le (by decide)

/-- A register added to `I` is zero-extended and the sum wraps (R93, decision D6 of the spec). -/
theorem State.indexPlusReg_toNat (s : State) (x : Nibble) :
    (s.indexPlusReg x).toNat = (s.i.toNat + (s.reg x).toNat) % 65536 := by
  rw [State.indexPlusReg, BitVec.toNat_add, State.reg_zeroExtend_toNat]

/-- Only the low nibble of the register selects a glyph, so the address never wraps (R94). -/
theorem State.glyphAddr_toNat (s : State) (x : Nibble) :
    (s.glyphAddr x).toNat = 5 * ((s.reg x).toNat % 16) := by
  have hdigit : ((s.reg x).zeroExtend 16 &&& 0xF).toNat = (s.reg x).toNat % 16 := by
    rw [BitVec.toNat_and, State.reg_zeroExtend_toNat]
    exact Nat.and_two_pow_sub_one_eq_mod _ 4
  rw [State.glyphAddr, BitVec.toNat_mul, hdigit]
  change 5 * ((s.reg x).toNat % 16) % 65536 = _
  omega

/-- An instruction that writes `I` and nothing else, the value given as a number. -/
theorem exec_setI {i : Instr} {s : State} {w : Word} {n : Nat} (hexec : exec i s = .next (s.setI w))
    (hw : w.toNat = n) :
    ∃ t, exec i s = .next t ∧ t.i.toNat = n ∧ t = { s with i := t.i } ∧ SameBytes s t :=
  ⟨_, hexec, hw, rfl, s.setI_readByte w⟩

/-- Settles O30: each writes `I` alone, with the address, the sum or the glyph's address. -/
theorem indexRegisterArithmetic : Obligations.IndexRegisterArithmetic := by
  unfold Obligations.IndexRegisterArithmetic
  intro addr x s
  exact ⟨decodeWord_encode (i := .ldIAddr addr) rfl, decodeWord_encode (i := .addIVx x) rfl,
    decodeWord_encode (i := .ldFVx x) rfl, exec_setI rfl (zextAddr_toNat addr),
    exec_setI rfl (s.indexPlusReg_toNat x), exec_setI rfl (s.glyphAddr_toNat x)⟩

end Sys2Proof.Machine
end

section
/-! SUPPORT. The family of spec/43_display.md: a draw as one list of landings, what a list of landings does to a pixel and to
the collision mark, and from these the draws (O38 to O42); and CLS (O37). -/

namespace Sys2Proof.Machine

/-! ## Flips (R103) -/

theorem Grid.flip_flip (d : Grid) (r q : Nat) : (d.flip r q).flip r q = d := by
  have hnot : not ∘ not = id := funext Bool.not_not
  have hrow : (fun row : List Bool => row.modify q not) ∘ (fun row => row.modify q not) = id :=
    funext fun row => by simp [List.modify_modify_eq, hnot, List.modify_id]
  rw [Grid.flip, Grid.flip, List.modify_modify_eq, hrow, List.modify_id]

/-- Commuting updates of two places of a list commute, whether or not the places differ. -/
theorem modify_comm {α : Type} {f g : α → α} (hfg : f ∘ g = g ∘ f) (l : List α) (i j : Nat) :
    (l.modify i f).modify j g = (l.modify j g).modify i f := by
  by_cases hij : i = j
  · subst hij
    rw [List.modify_modify_eq, List.modify_modify_eq, hfg]
  · exact List.modify_modify_ne f g l hij

theorem Grid.flip_comm (d : Grid) (r q r' q' : Nat) : (d.flip r q).flip r' q' = (d.flip r' q').flip r q :=
  modify_comm (funext fun row => modify_comm rfl row q' q) d r r'

/-- The grid after a flip at each of a list of pixels. -/
def Grid.flipAll (d : Grid) (ps : List (Nat × Nat)) : Grid := ps.foldl (fun d p => d.flip p.1 p.2) d

@[simp] theorem Grid.flipAll_nil (d : Grid) : d.flipAll [] = d := rfl
@[simp] theorem Grid.flipAll_cons (d : Grid) (p : Nat × Nat) (ps : List (Nat × Nat)) :
    d.flipAll (p :: ps) = (d.flip p.1 p.2).flipAll ps := rfl

/-- A flip may be made before or after a list of others. -/
theorem Grid.flipAll_flip (d : Grid) (r q : Nat) (ps : List (Nat × Nat)) :
    (d.flip r q).flipAll ps = (d.flipAll ps).flip r q :=
  List.foldl_hom (Grid.flip · r q) fun d p => d.flip_comm r q p.1 p.2

theorem Grid.flipAll_flipAll (d : Grid) (ps : List (Nat × Nat)) : (d.flipAll ps).flipAll ps = d := by
  induction ps generalizing d with
  | nil => rfl
  | cons p ps ih => rw [Grid.flipAll_cons, Grid.flipAll_cons, ← Grid.flipAll_flip, Grid.flip_flip, ih]

theorem Grid.flipAll_shape {g : Config} {d : Grid} (h : gridShape g d) (ps : List (Nat × Nat)) :
    gridShape g (d.flipAll ps) := by
  induction ps generalizing d with
  | nil => exact h
  | cons p ps ih => exact ih (Grid.flip_shape _ _ h)

/-- A pixel ends as its old value XOR the parity of the flips made at it (R104). -/
theorem Grid.flipAll_pixel {g : Config} {d : Grid} (h : gridShape g d) {r c : Nat} (hr : r < g.height) (hc : c < g.width)
    (ps : List (Nat × Nat)) :
    (d.flipAll ps).pixel r c = (d.pixel r c ^^ decide (ps.count (r, c) % 2 = 1)) := by
  induction ps generalizing d with
  | nil => simp
  | cons p ps ih =>
    rw [Grid.flipAll_cons, ih (Grid.flip_shape _ _ h), Grid.flip_pixel h, List.count_cons]
    by_cases hp : p = (r, c)
    · subst hp
      rcases Nat.mod_two_eq_zero_or_one (ps.count (r, c)) with e | e <;> simp [hr, hc, Nat.add_mod, e]
    · have hne : ¬ (r = p.1 ∧ c = p.2 ∧ p.1 < g.height ∧ p.2 < g.width) :=
        fun ⟨er, ec, _⟩ => hp (Prod.ext er.symm ec.symm)
      rw [if_neg hne]
      simp [hp]

/-! ## Landings and the collision mark (R103) -/

/-- The grid and the collision mark after a sprite bit lands on each of a list of pixels. -/
def landAll (ps : List (Nat × Nat)) (acc : Grid × Bool) : Grid × Bool := ps.foldl (fun acc p => landBit p.1 p.2 acc) acc

@[simp] theorem landAll_nil (acc : Grid × Bool) : landAll [] acc = acc := rfl
@[simp] theorem landAll_cons (p : Nat × Nat) (ps : List (Nat × Nat)) (acc : Grid × Bool) :
    landAll (p :: ps) acc = landAll ps (acc.1.flip p.1 p.2, acc.2 || acc.1.pixel p.1 p.2) := rfl

theorem landAll_grid (ps : List (Nat × Nat)) (acc : Grid × Bool) : (landAll ps acc).1 = acc.1.flipAll ps := by
  induction ps generalizing acc with
  | nil => rfl
  | cons p ps ih => exact ih (landBit p.1 p.2 acc)

/-- The mark is set exactly when it was, or a bit landed on a pixel that was 1, or two bits landed on one pixel: of two
landings on a pixel that was 0, the second finds it at 1. -/
theorem landAll_mark {g : Config} {ps : List (Nat × Nat)} {acc : Grid × Bool} (h : gridShape g acc.1)
    (hps : ∀ p ∈ ps, p.1 < g.height ∧ p.2 < g.width) :
    (landAll ps acc).2 = true ↔
      acc.2 = true ∨ ∃ p ∈ ps, acc.1.pixel p.1 p.2 = true ∨ 2 ≤ ps.count p := by
  induction ps generalizing acc with
  | nil => simp
  | cons p ps ih =>
    have hp := hps p List.mem_cons_self
    have hflip (q : Nat × Nat) : (acc.1.flip p.1 p.2).pixel q.1 q.2 =
        if q = p then !acc.1.pixel q.1 q.2 else acc.1.pixel q.1 q.2 := by
      simp [Grid.flip_pixel h, hp, Prod.ext_iff]
    have hcount (q : Nat × Nat) : (p :: ps).count q = ps.count q + if q = p then 1 else 0 := by
      simp only [List.count_cons, beq_iff_eq, eq_comm (a := p)]
    rw [landAll_cons, ih (Grid.flip_shape _ _ h) fun q hq => hps q (List.mem_cons_of_mem _ hq)]
    simp only [hflip, hcount, Bool.or_eq_true, or_assoc]
    refine or_congr_right ⟨?_, ?_⟩
    · rintro (hlit | ⟨q, hq, hlit⟩)
      · exact ⟨p, List.mem_cons_self, .inl hlit⟩
      · refine ⟨q, List.mem_cons_of_mem _ hq, ?_⟩
        by_cases hqp : q = p
        · have := List.count_pos_iff.2 hq
          exact .inr (by rw [if_pos hqp]; omega)
        · simpa [hqp] using hlit
    · rintro ⟨q, hq, hlit⟩
      by_cases hqp : q = p
      · subst hqp
        cases hpixel : acc.1.pixel q.1 q.2 with
        | true => exact .inl rfl
        | false =>
          have htwice : 0 < ps.count q := by simpa [hpixel] using hlit
          exact .inr ⟨q, List.count_pos_iff.1 htwice, .inl (by simp [hpixel])⟩
      · exact .inr ⟨q, List.mem_of_ne_of_mem hqp hq, by simpa [hqp] using hlit⟩

/-! ## A draw as one list of landings (R101, R102) -/

theorem drawBits_eq_foldl (g : Config) (cx py : Nat) (row : Byte) (c k : Nat) (acc : Grid × Bool) :
    drawBits g cx py row c k acc = (List.range' c k).foldl
      (fun acc c => if row.getLsbD (7 - c) then landBit py ((cx + c) % g.width) acc else acc) acc := by
  induction k generalizing c acc with
  | zero => rfl
  | succ k ih => exact ih (c + 1) _

theorem drawRows_eq_foldl (g : Config) (cx cy : Nat) (f : Nat → Byte) (r k : Nat) (acc : Grid × Bool) :
    drawRows g cx cy r ((List.range' r k).map f) acc = (List.range' r k).foldl
      (fun acc r => drawBits g cx ((cy + r) % g.height) (f r) 0 8 acc) acc := by
  induction k generalizing r acc with
  | zero => rfl
  | succ k ih => exact ih (r + 1) _

/-- The pixel a draw's sprite bit at an offset lands on, rows and columns wrapping independently (R102). -/
def State.place (s : State) (x y : Nibble) (rc : Nat × Nat) : Nat × Nat :=
  (((s.reg y).toNat + rc.1) % s.cfg.height, ((s.reg x).toNat + rc.2) % s.cfg.width)

/-- The offsets of the sprite bits that are 1, by rows and then by columns (R101). -/
def State.litOffsets (s : State) (n : Nibble) : List (Nat × Nat) :=
  (List.range n.toNat ×ˢ List.range 8).filter fun rc => s.spriteBit rc.1 rc.2

/-- The pixels the sprite bits of a draw land on, in the order they do. -/
def State.landedPixels (s : State) (x y n : Nibble) : List (Nat × Nat) :=
  (s.litOffsets n).map (s.place x y)

theorem State.composited_eq_landAll (s : State) (x y n : Nibble) :
    s.composited x y n = landAll (s.landedPixels x y n) (s.display, false) := by
  simp only [State.composited, State.spriteBytes, List.range_eq_range', drawRows_eq_foldl, drawBits_eq_foldl, landAll,
    State.landedPixels, State.litOffsets, SProd.sprod, List.product, List.foldl_flatMap, List.foldl_map, List.foldl_filter]
  rfl

theorem State.mem_litOffsets {s : State} {n : Nibble} {r c : Nat} :
    (r, c) ∈ s.litOffsets n ↔ (r < n.toNat ∧ c < 8) ∧ s.spriteBit r c = true := by
  simp [State.litOffsets]

/-- The landings of a draw on a pixel, counted. -/
theorem State.landings_length (s : State) (x y n : Nibble) (r c : Nat) :
    (s.landings (s.reg x).toNat (s.reg y).toNat n.toNat r c).length = (s.landedPixels x y n).count (r, c) := by
  rw [State.landings, ← List.countP_eq_length_filter, State.landedPixels, List.count, List.countP_map, State.litOffsets,
    List.countP_filter]
  exact congrArg (List.countP · _) (funext fun rc => Bool.and_comm ..)

theorem State.landings_ne_nil (s : State) (x y n : Nibble) (r c : Nat) :
    s.landings (s.reg x).toNat (s.reg y).toNat n.toNat r c ≠ [] ↔ (r, c) ∈ s.landedPixels x y n := by
  rw [← List.length_pos_iff, s.landings_length, List.count_pos_iff]

theorem State.exists_landedPixels_iff {s : State} {x y n : Nibble} {P : Nat × Nat → Prop} :
    (∃ p ∈ s.landedPixels x y n, P p) ↔ ∃ r c, r < n.toNat ∧ c < 8 ∧ s.spriteBit r c = true ∧
      P (s.place x y (r, c)) := by
  simp only [State.landedPixels, List.mem_map, exists_exists_and_eq_and]
  simp only [Prod.exists, State.mem_litOffsets, and_assoc]

/-- On a display of legal dimensions every landing is on the display. -/
theorem State.landedPixels_lt {s : State} (hcfg : s.cfg.Ok) {x y n : Nibble} :
    ∀ p ∈ s.landedPixels x y n, p.1 < s.cfg.height ∧ p.2 < s.cfg.width := by
  intro p hp
  obtain ⟨rc, -, rfl⟩ := List.mem_map.1 hp
  exact ⟨Nat.mod_lt _ hcfg.2, Nat.mod_lt _ hcfg.1⟩

/-- Where the display is no narrower and no lower than the sprite, no two bits land on one pixel. -/
theorem State.landedPixels_nodup {s : State} {x y n : Nibble} (hw : 8 ≤ s.cfg.width) (hh : n.toNat ≤ s.cfg.height) :
    (s.landedPixels x y n).Nodup := by
  have offset_inj {base m a b : Nat} (ha : a < m) (hb : b < m) (e : (base + a) % m = (base + b) % m) : a = b :=
    (Nat.ModEq.add_left_cancel' base e).eq_of_lt_of_lt ha hb
  refine List.Nodup.map_on ?_ ((List.nodup_range.product List.nodup_range).filter _)
  rintro ⟨r, c⟩ hrc ⟨r', c'⟩ hrc' e
  obtain ⟨⟨hr, hc⟩, -⟩ := State.mem_litOffsets.1 hrc
  obtain ⟨⟨hr', hc'⟩, -⟩ := State.mem_litOffsets.1 hrc'
  obtain ⟨er, ec⟩ := Prod.mk.inj e
  exact Prod.ext (offset_inj (by omega) (by omega) er) (offset_inj (by omega) (by omega) ec)

/-! ## The draw and the draw after it (R100, R105) -/

/-- The state after a draw inside memory. -/
def State.drawn (s : State) (x y n : Nibble) : State :=
  (s.setDisplay (s.composited x y n).1).setReg vf (collisionFlag (s.composited x y n).2)

theorem exec_drw_of_inMemory {s : State} {n : Nibble} (x y : Nibble) (hr : n = 0 ∨ s.i.toNat + n.toNat ≤ 0x1000) :
    exec (.drw x y n) s = .next (s.drawn x y n) := by
  have hr' : n.toNat = 0 ∨ s.i.toNat + n.toNat ≤ 0x1000 := hr.imp_left (congrArg BitVec.toNat)
  exact congrArg _ (withRange_ok _ hr')

theorem State.drawn_display (s : State) (x y n : Nibble) :
    (s.drawn x y n).display = s.display.flipAll (s.landedPixels x y n) := by
  change (s.composited x y n).1 = _
  rw [s.composited_eq_landAll, landAll_grid]

theorem State.drawn_shape (s : State) (hd : gridShape s.cfg s.display) (x y n : Nibble) :
    gridShape s.cfg (s.drawn x y n).display := by
  rw [s.drawn_display]
  exact Grid.flipAll_shape hd _

theorem State.drawn_reg_vf (s : State) (x y n : Nibble) :
    (s.drawn x y n).reg vf = flagByte (landAll (s.landedPixels x y n) (s.display, false)).2 := by
  rw [State.drawn, State.setReg_reg_same, collisionFlag, s.composited_eq_landAll]

theorem State.drawn_reg_vf_eq_one_or_zero (s : State) (x y n : Nibble) :
    (s.drawn x y n).reg vf = 1 ∨ (s.drawn x y n).reg vf = 0 := by
  rw [s.drawn_reg_vf, flagByte]
  split
  · exact .inl rfl
  · exact .inr rfl

theorem flagByte_eq_one_iff (c : Bool) : flagByte c = 1 ↔ c = true := by
  cases c <;> decide

/-- VF after a draw is 1 exactly when a landed pixel was 1 or is landed on twice (R103). -/
theorem State.drawn_reg_vf_eq_one_iff {s : State} (hcfg : s.cfg.Ok) (hd : gridShape s.cfg s.display) (x y n : Nibble) :
    (s.drawn x y n).reg vf = 1 ↔ ∃ p ∈ s.landedPixels x y n,
      s.display.pixel p.1 p.2 = true ∨ 2 ≤ (s.landedPixels x y n).count p := by
  rw [s.drawn_reg_vf, flagByte_eq_one_iff, landAll_mark hd (State.landedPixels_lt hcfg)]
  simp

/-- With neither coordinate in VF, the second of two equal draws lands where the first did. -/
theorem State.drawn_landedPixels (s : State) {x y : Nibble} (n : Nibble) (hx : x ≠ vf) (hy : y ≠ vf) :
    (s.drawn x y n).landedPixels x y n = s.landedPixels x y n := by
  have hregx : (s.drawn x y n).reg x = s.reg x := State.setReg_reg_ne _ _ hx
  have hregy : (s.drawn x y n).reg y = s.reg y := State.setReg_reg_ne _ _ hy
  have hplace : (s.drawn x y n).place x y = s.place x y := by
    funext rc
    rw [State.place, hregx, hregy]
    rfl
  rw [State.landedPixels, hplace]
  rfl

/-- Settles O38: each pixel takes the parity of the landings on it. -/
theorem drawXorsTheSpriteIntoTheDisplay : Obligations.DrawXorsTheSpriteIntoTheDisplay := by
  unfold Obligations.DrawXorsTheSpriteIntoTheDisplay
  intro x y n s _ hd hr
  refine ⟨decodeWord_encode (i := .drw x y n) rfl, s.drawn x y n, exec_drw_of_inMemory x y hr, s.drawn_shape hd x y n,
    fun r c hrow hcol => ?_, fun _ hreg => State.setReg_reg_ne _ _ hreg, rfl, fun _ => rfl⟩
  rw [s.drawn_display, Grid.flipAll_pixel hd hrow hcol, s.landings_length]

/-- Settles O39: the collision mark, with the landings counted pixel by pixel. -/
theorem drawSetsTheCollisionFlag : Obligations.DrawSetsTheCollisionFlag := by
  unfold Obligations.DrawSetsTheCollisionFlag
  intro x y n s hcfg hd hr
  refine ⟨s.drawn x y n, exec_drw_of_inMemory x y hr, s.drawn_reg_vf_eq_one_or_zero x y n, ?_⟩
  simp only [State.drawn_reg_vf_eq_one_iff hcfg hd, s.landings_length, s.landings_ne_nil]
  constructor
  · rintro ⟨⟨r, c⟩, hp, hcollides⟩
    obtain ⟨hrow, hcol⟩ := State.landedPixels_lt hcfg _ hp
    exact ⟨r, c, hrow, hcol, hcollides.imp_left (⟨·, hp⟩)⟩
  · rintro ⟨r, c, -, -, ⟨hlit, hp⟩ | htwice⟩
    · exact ⟨(r, c), hp, .inl hlit⟩
    · exact ⟨(r, c), List.count_pos_iff.1 (by omega), .inr htwice⟩

/-- Settles O40: the second draw flips the same pixels back. -/
theorem drawingTwiceRestoresTheDisplay : Obligations.DrawingTwiceRestoresTheDisplay := by
  unfold Obligations.DrawingTwiceRestoresTheDisplay
  intro x y n s hx hy hr
  refine ⟨_, _, exec_drw_of_inMemory x y hr, exec_drw_of_inMemory x y hr, ?_⟩
  rw [State.drawn_display, s.drawn_landedPixels n hx hy, s.drawn_display, Grid.flipAll_flipAll]

/-- Settles O41: a landed pixel is inverted once by the first draw, so the second finds it at 1 exactly when it was 0. -/
theorem secondDrawCollidesWhereTheDisplayWasClear : Obligations.SecondDrawCollidesWhereTheDisplayWasClear := by
  unfold Obligations.SecondDrawCollidesWhereTheDisplayWasClear
  intro x y n s hx hy hr hd hw hh hh1
  have hcfg : s.cfg.Ok := ⟨by omega, hh1⟩
  refine ⟨s.drawn x y n, _, exec_drw_of_inMemory x y hr, exec_drw_of_inMemory x y hr,
    State.drawn_reg_vf_eq_one_or_zero _ x y n, ?_⟩
  rw [State.drawn_reg_vf_eq_one_iff (s := s.drawn x y n) hcfg (s.drawn_shape hd x y n), s.drawn_landedPixels n hx hy]
  refine Iff.trans (exists_congr fun p => and_congr_right fun hp => ?_)
    (State.exists_landedPixels_iff (P := fun p => s.display.pixel p.1 p.2 = false))
  obtain ⟨hrow, hcol⟩ := State.landedPixels_lt hcfg p hp
  have hone : (s.landedPixels x y n).count p = 1 := List.count_eq_one_of_mem (State.landedPixels_nodup hw hh) hp
  rw [s.drawn_display, Grid.flipAll_pixel hd hrow hcol, hone]
  simp

/-- A one-row sprite whose only bit lands on a pixel that is already 1. -/
def litUnderSprite : State :=
  { State.reset with i := 0x200, mem := [(0x200, 0x80)], display := (Grid.blank Config.default).flip 0 0 }

/-- Refutes O42: the second draw over `litUnderSprite` turns a pixel from 0 to 1, so VF is 0 though the sprite has a 1 bit. -/
theorem not_secondDrawCollidesWheneverTheSpriteHasABit :
    ¬ Obligations.SecondDrawCollidesWheneverTheSpriteHasABit := by
  unfold Obligations.SecondDrawCollidesWheneverTheSpriteHasABit
  intro h
  obtain ⟨t, u, ht, hu, hflag⟩ := h 0 1 1 litUnderSprite (by decide) (by decide) (by decide) (by decide) (by decide)
    (by decide) (by decide)
  have hone : u.reg vf = 1 := hflag.2 ⟨0, 0, by decide, by decide, by decide⟩
  cases ht
  cases hu
  exact absurd hone (by decide)

/-! ## CLS (R99) -/

/-- Settles O37: the blank grid replaces the display, and the decoder does not read the ignored nibble (R57). -/
theorem clsClearsTheDisplay : Obligations.ClsClearsTheDisplay := by
  unfold Obligations.ClsClearsTheDisplay
  intro s ignored
  exact ⟨by simp [decodeWord, decodeFamily0], s.setDisplay (Grid.blank s.cfg), rfl, Grid.blank_shape s.cfg,
    Grid.blank_pixel s.cfg, rfl, fun _ => rfl⟩

end Sys2Proof.Machine
end

section
/-! SUPPORT. The family of spec/44_timers_input.md, first part: the timer instructions and the Tick (O43, O49), the key skips
(O44), the live latch under SetKey (O50), and the only step that answers no next state (O57). -/

namespace Sys2Proof.Machine

/-! ## The timers (R107, R108, R109, R115) -/

/-- Settles O43: each moves its byte with one update, and the sound output is active exactly when `ST` is not 0 (R129). -/
theorem timerInstructionsMoveAByte : Obligations.TimerInstructionsMoveAByte := by
  unfold Obligations.TimerInstructionsMoveAByte
  intro x s
  refine ⟨decodeWord_encode (i := .ldVxDt x) rfl, decodeWord_encode (i := .ldDtVx x) rfl,
    decodeWord_encode (i := .ldStVx x) rfl, ?_, ?_, ?_⟩
  · exact ⟨_, rfl, s.setReg_reg_same x s.dt, s.setReg_frame x s.dt⟩
  · exact ⟨_, rfl, rfl, rfl, s.setDt_readByte _⟩
  · exact ⟨_, rfl, rfl, bne_iff_ne, rfl, s.setSt_readByte _⟩

/-- A timer above 0 loses 1, and a timer at 0 stays there (R115). -/
theorem countDown_toNat (b : Byte) : (countDown b).toNat = if b.toNat > 0 then b.toNat - 1 else 0 := by
  unfold countDown
  by_cases hb : b = 0
  · simp [hb]
  · have hpos : 0 < b.toNat := Nat.pos_of_ne_zero fun h => hb (BitVec.eq_of_toNat_eq h)
    rw [if_neg hb, if_pos hpos]
    exact BitVec.toNat_sub_of_le (x := b) (y := 1) hpos

/-- Settles O49: each timer is counted down by itself. -/
theorem tickCountsBothTimersDown : Obligations.TickCountsBothTimersDown := by
  unfold Obligations.TickCountsBothTimersDown
  exact fun s => ⟨s.tick, rfl, countDown_toNat s.dt, countDown_toNat s.st, rfl⟩

/-! ## The key skips (R110, R111) -/

/-- The key a skip tests is the one the low nibble of its register names. -/
theorem State.keyOf_eq {s : State} {x : Nibble} {k : Fin 16} (hk : k.val = (s.reg x).toNat % 16) :
    s.keyOf x = s.keys[k] := by
  simp only [State.keyOf, Fin.getElem_fin, hk]

/-- Settles O44: both instructions are skips, on the key that is down and on the key that is up. -/
theorem skipsOnKeys : Obligations.SkipsOnKeys := by
  unfold Obligations.SkipsOnKeys
  intro x s k hk
  have hkey := State.keyOf_eq hk
  refine ⟨decodeWord_encode (i := .skp x) rfl, decodeWord_encode (i := .sknp x) rfl, ?_, ?_⟩
  · exact exec_skip rfl (by rw [hkey])
  · exact exec_skip rfl (by rw [hkey, Bool.not_eq_true'])

/-! ## The live latch (R116) -/

theorem State.setKey_keys_same (s : State) (k : Fin 16) (p : Bool) : (s.setKey k p).keys[k] = p :=
  Vector.getElem_set_self _

theorem State.setKey_keys_ne (s : State) {k j : Fin 16} (p : Bool) (h : j ≠ k) : (s.setKey k p).keys[j] = s.keys[j] :=
  Vector.getElem_set_ne k.isLt j.isLt (Fin.val_ne_of_ne h.symm)

/-- A SetKey with a legal index. -/
theorem perform_setKey (s : State) (k : Fin 16) (p : Bool) : perform (.setKey k.val p) s = .next (s.setKey k p) :=
  dif_pos k.isLt

/-- A SetKey with an index outside 0..15 (decision D31 of the spec). -/
theorem perform_setKey_refused (s : State) {k : Nat} (p : Bool) (hk : 15 < k) :
    perform (.setKey k p) s = .refused (.keyIndexOutOfRange k) :=
  dif_neg (Nat.not_lt.2 hk)

/-- Settles O50: a legal index writes its key, and any other is refused. -/
theorem setKeyWritesOneKeyOrIsRefused : Obligations.SetKeyWritesOneKeyOrIsRefused := by
  unfold Obligations.SetKeyWritesOneKeyOrIsRefused
  intro s p
  refine ⟨fun k => ?_, fun _ hk => perform_setKey_refused s p hk⟩
  exact ⟨_, perform_setKey s k p, s.setKey_keys_same k p, fun _ hj => s.setKey_keys_ne p hj, rfl⟩

/-! ## The step that is refused (R116, R119) -/

/-- A Cycle always answers a next state: it does nothing, enters a fault, or executes an instruction. -/
theorem cycle_next (s : State) : ∃ t, cycle s = .next t := by
  rcases cycle_cases s with ⟨-, e⟩ | ⟨-, -, e⟩ | ⟨-, -, e⟩
  · exact ⟨_, e⟩
  · exact ⟨_, e⟩
  · rw [e]
    exact exec_next _ _

/-- A request answers a next state, or it is a SetKey with an index outside 0..15 and is refused. -/
theorem perform_next_or_refused (r : Request) (s : State) :
    (∃ t, perform r s = .next t) ∨
      ∃ k p, r = .setKey k p ∧ 15 < k ∧ perform r s = .refused (.keyIndexOutOfRange k) := by
  cases r with
  | cycle => exact .inl (cycle_next s)
  | setKey k p =>
    by_cases hk : k < 16
    · exact .inl ⟨_, perform_setKey s ⟨k, hk⟩ p⟩
    · have hk : 15 < k := Nat.not_lt.1 hk
      exact .inr ⟨k, p, rfl, hk, perform_setKey_refused s p hk⟩
  | reset | load | tick => exact .inl ⟨_, rfl⟩

/-- Settles O57: with no request the step is a Cycle; otherwise it performs the request (O9). -/
theorem onlyAnIllegalKeyIndexStopsAStep : Obligations.OnlyAnIllegalKeyIndexStopsAStep := by
  unfold Obligations.OnlyAnIllegalKeyIndexStopsAStep
  intro s
  cases hi : s.inbox with
  | nil =>
    rw [step_of_cycleNext (.inl hi)]
    exact .inl (cycle_next _)
  | cons r rest =>
    rw [stepPerformsTheNextRequest s r rest hi]
    refine (perform_next_or_refused r _).imp_right ?_
    rintro ⟨k, p, rfl, hk, e⟩
    exact ⟨k, p, rest, rfl, hk, e⟩

end Sys2Proof.Machine
end

section
/-! SUPPORT. The family of spec/44_timers_input.md, second part: the key-wait, by its transitions (O45), by the Cycles that
change nothing (O47), and from a press to the release that ends it (O48). -/

namespace Sys2Proof.Machine

/-! ## The transitions (R112, R113) -/

/-- The search through the keys finds the lowest that differs from the snapshot (decision D11 of the spec). -/
theorem State.changedKey_eq_some_iff {s : State} {k : Fin 16} : s.changedKey = some k ↔ s.LowestChanged k := by
  simp only [State.changedKey, List.find?_eq_some_iff_getElem, List.getElem_finRange, List.length_finRange,
    State.LowestChanged, bne_iff_ne, Bool.not_eq_true', bne_eq_false_iff_eq]
  refine and_congr_right fun _ => ⟨?_, fun h => ?_⟩
  · rintro ⟨i, hi, rfl, h⟩ j hj
    exact h j hj
  · exact ⟨k, k.isLt, rfl, fun j hj => h ⟨j, by omega⟩ hj⟩

section
variable {s : State} (x : Nibble)

theorem exec_ldVxK_seeking (hkw : s.kw ≠ .awaitingRelease) : exec (.ldVxK x) s = .next s.seekKey := by
  simp only [exec, execLdVxK]
  split
  · rfl
  · rfl
  · contradiction

theorem exec_ldVxK_releasing (hkw : s.kw = .awaitingRelease) : exec (.ldVxK x) s = .next (s.seekRelease x) := by
  simp only [exec, execLdVxK, hkw]

/-- A key-wait that seeks a key detects the lowest changed one and awaits its release, at its own address. -/
theorem exec_ldVxK_of_lowestChanged {k : Fin 16} (hkw : s.kw ≠ .awaitingRelease) (hk : s.LowestChanged k) :
    exec (.ldVxK x) s = .next { s with kw := .awaitingRelease, kdet := k, pc := s.pc - 2 } := by
  rw [exec_ldVxK_seeking x hkw, State.seekKey, State.changedKey_eq_some_iff.2 hk]
  rfl

/-- With the detected key up the key-wait ends, past its instruction. -/
theorem exec_ldVxK_of_keyUp (hkw : s.kw = .awaitingRelease) (hup : s.keys[s.kdet] = false) :
    exec (.ldVxK x) s = .next ((s.setReg x (BitVec.ofNat 8 s.kdet.val)).setKw .idle) := by
  rw [exec_ldVxK_releasing x hkw, State.seekRelease, hup]
  rfl

/-- With the detected key down the key-wait goes on, at its own address. -/
theorem exec_ldVxK_of_keyDown (hkw : s.kw = .awaitingRelease) (hdown : s.keys[s.kdet] = true) :
    exec (.ldVxK x) s = .next { s with pc := s.pc - 2 } := by
  rw [exec_ldVxK_releasing x hkw, State.seekRelease, hdown]
  rfl

end

theorem key_ofNat_toNat (k : Fin 16) : (BitVec.ofNat 8 k.val).toNat = k.val :=
  Nat.mod_eq_of_lt (by omega)

/-- Settles O45: one lemma for each transition, `idle` and `awaiting_press` seeking alike. -/
theorem keyWaitTransitions : Obligations.KeyWaitTransitions := by
  unfold Obligations.KeyWaitTransitions
  intro x s
  have seeking (h : s.kw = .idle ∨ s.kw = .awaitingPress) : s.kw ≠ .awaitingRelease := by
    rcases h with h | h <;> simp [h]
  refine ⟨decodeWord_encode (i := .ldVxK x) rfl, fun hkw k hk => exec_ldVxK_of_lowestChanged x (seeking hkw) hk,
    fun hkw hkeys => exec_ldVxK_of_keys_eq_snap x (seeking hkw) hkeys, fun hkw hup => ?_, exec_ldVxK_of_keyDown x⟩
  refine ⟨_, exec_ldVxK_of_keyUp x hkw hup, ?_, fun r hr => s.setReg_reg_ne _ hr, rfl, fun _ => rfl⟩
  rw [State.setKw_reg, State.setReg_reg_same, key_ofNat_toNat]

/-! ## A Cycle of a key-wait that has begun (R55, R113, R114) -/

/-- The key-wait's return undoes the advance (R56, R113). -/
theorem State.advance_pc_sub (s : State) : s.advance.pc - 2 = s.pc := BitVec.add_sub_cancel ..

section
variable {s : State} {x : Nibble} (hnext : s.CycleNext) (hsafe : s.Safe) (hpc : s.FetchOk)
  (hword : decodeWord (s.wordAt s.pc.toNat) = .ldVxK x)
include hnext hsafe hpc hword

/-- Outside `idle` no snapshot is taken: the Cycle is the advance and the instruction. -/
theorem step_ldVxK (hkw : s.kw ≠ .idle) : step s = exec (.ldVxK x) s.popRequest.advance := by
  rw [stepRunsTheDecodedInstruction s hnext hsafe hpc, hword, if_neg hkw]
  rfl

/-- A Cycle in `awaiting_press` with no key changed leaves every element. -/
theorem step_ldVxK_of_keys_eq_snap (hkw : s.kw = .awaitingPress) (hkeys : s.keys = s.snap) :
    step s = .next s.popRequest := by
  have hseek : s.kw ≠ .awaitingRelease := by simp [hkw]
  rw [step_ldVxK hnext hsafe hpc hword (by simp [hkw]),
    exec_ldVxK_of_keys_eq_snap (s := s.popRequest.advance) x hseek hkeys, State.advance_pc_sub, ← hkw]
  rfl

/-- A Cycle in `awaiting_press` with a key changed detects the lowest such key. -/
theorem step_ldVxK_of_lowestChanged {k : Fin 16} (hkw : s.kw = .awaitingPress) (hk : s.LowestChanged k) :
    step s = .next { s.popRequest with kw := .awaitingRelease, kdet := k } := by
  have hseek : s.kw ≠ .awaitingRelease := by simp [hkw]
  rw [step_ldVxK hnext hsafe hpc hword (by simp [hkw]),
    exec_ldVxK_of_lowestChanged (s := s.popRequest.advance) x hseek hk, State.advance_pc_sub]
  rfl

/-- A Cycle in `awaiting_release` with the detected key down leaves every element. -/
theorem step_ldVxK_of_keyDown (hkw : s.kw = .awaitingRelease) (hdown : s.keys[s.kdet] = true) :
    step s = .next s.popRequest := by
  rw [step_ldVxK hnext hsafe hpc hword (by simp [hkw]),
    exec_ldVxK_of_keyDown (s := s.popRequest.advance) x hkw hdown, State.advance_pc_sub]
  rfl

/-- A Cycle in `awaiting_release` with the detected key up ends the key-wait. -/
theorem step_ldVxK_of_keyUp (hkw : s.kw = .awaitingRelease) (hup : s.keys[s.kdet] = false) :
    step s = .next ((s.popRequest.advance.setReg x (BitVec.ofNat 8 s.kdet.val)).setKw .idle) := by
  rw [step_ldVxK hnext hsafe hpc hword (by simp [hkw])]
  exact exec_ldVxK_of_keyUp (s := s.popRequest.advance) x hkw hup

end

/-- Settles O47: each of the two waits finds no transition. -/
theorem keyWaitWithoutATransitionChangesNothing : Obligations.KeyWaitWithoutATransitionChangesNothing := by
  unfold Obligations.KeyWaitWithoutATransitionChangesNothing
  rintro s x hnext hsafe hpc hword (⟨hkw, hkeys⟩ | ⟨hkw, hdown⟩)
  · exact step_ldVxK_of_keys_eq_snap hnext hsafe hpc hword hkw hkeys
  · exact step_ldVxK_of_keyDown hnext hsafe hpc hword hkw hdown

/-! ## A press and a release (R113, R116) -/

/-- A run takes its first step and goes on from there. -/
theorem run_succ_of_step {n : Nat} {s t : State} (h : step s = .next t) : core.run (n + 1) s = core.run n t := by
  have hcore : core.step s = .next t := h
  simp only [Host.Core.run, hcore]

/-- A step with a legal SetKey at the head of the inbox takes it off and writes the key. -/
theorem step_setKey {s : State} {k : Fin 16} {p : Bool} {rest : List Request} (h : s.inbox = .setKey k.val p :: rest) :
    step s = .next (({ s with inbox := rest } : State).setKey k p) := by
  rw [stepPerformsTheNextRequest s _ rest h, perform_setKey]

/-- A SetKey that changes a key, where the latch was as the snapshot, makes it the lowest changed key. -/
theorem State.lowestChanged_setKey {s : State} {k : Fin 16} {p : Bool} (hkeys : s.keys = s.snap) (hk : s.keys[k] ≠ p) :
    (s.setKey k p).LowestChanged k := by
  have hsnap : (s.setKey k p).snap = s.keys := hkeys.symm
  simp only [State.LowestChanged, hsnap, State.setKey_keys_same]
  exact ⟨hk.symm, fun j hj => s.setKey_keys_ne p hj.ne⟩

/-- A press and a release of a key that was up leave the latch as it was. -/
theorem press_release_keys {keys : Vector Bool 16} (k : Fin 16) (hk : keys[k] = false) :
    (keys.set k true).set k false = keys := by
  rw [Vector.set_set, ← hk]
  exact Vector.set_getElem_self _

/-- `s` in a key-wait it has begun, the requests `q` pending: the snapshot is the latch the wait began with. -/
def State.waiting (s : State) (kw : KeyWait) (kdet : Fin 16) (keys : Vector Bool 16) (q : List Request) : State :=
  { s with inbox := q, snap := s.keys, kw, kdet, keys }

theorem step_waiting_setKey (s : State) (kw : KeyWait) (kdet k : Fin 16) (keys : Vector Bool 16) (p : Bool)
    (q : List Request) :
    step (s.waiting kw kdet keys (.setKey k.val p :: q)) = .next (s.waiting kw kdet (keys.set k p) q) :=
  step_setKey rfl

/-- The run of a key-wait from `idle` with a press of key `k` after its first Cycle and a release after its second: the wait
begins, the key goes down and is detected, it goes up, and the wait ends. -/
theorem run_pressThenRelease {s : State} {x : Nibble} {k : Fin 16} (hsafe : s.Safe) (hpc : s.FetchOk)
    (hword : decodeWord (s.wordAt s.pc.toNat) = .ldVxK x) (hkw : s.kw = .idle) (hk : s.keys[k] = false) :
    core.run 5 ({ s with inbox := [.cycle, .setKey k.val true, .cycle, .setKey k.val false, .cycle] } : State) =
      .next ((s.waiting .idle k s.keys []).advance.setReg x (BitVec.ofNat 8 k.val)) := by
  have hbegin (q) : step { s with inbox := .cycle :: q } = .next (s.waiting .awaitingPress s.kdet s.keys q) :=
    firstKeyWaitCycleDetectsNothing { s with inbox := _ } x (.inr ⟨q, rfl⟩) hsafe hpc hword hkw
  have hdetect (q) : step (s.waiting .awaitingPress s.kdet (s.keys.set k true) (.cycle :: q)) =
      .next (s.waiting .awaitingRelease k (s.keys.set k true) q) :=
    step_ldVxK_of_lowestChanged (s := s.waiting ..) (.inr ⟨q, rfl⟩) hsafe hpc hword rfl
      (State.lowestChanged_setKey (s := s.waiting .awaitingPress s.kdet s.keys _) rfl (ne_true_of_eq_false hk))
  have hend (q) : step (s.waiting .awaitingRelease k s.keys (.cycle :: q)) =
      .next ((s.waiting .idle k s.keys q).advance.setReg x (BitVec.ofNat 8 k.val)) :=
    step_ldVxK_of_keyUp (s := s.waiting ..) (.inr ⟨q, rfl⟩) hsafe hpc hword rfl hk
  rw [run_succ_of_step (hbegin _), run_succ_of_step (step_waiting_setKey ..), run_succ_of_step (hdetect _),
    run_succ_of_step (step_waiting_setKey ..), press_release_keys k hk, run_succ_of_step (hend _)]
  rfl

/-- Settles O48: the state at the end of that run. -/
theorem pressThenReleaseEndsTheKeyWait : Obligations.PressThenReleaseEndsTheKeyWait := by
  unfold Obligations.PressThenReleaseEndsTheKeyWait
  intro s x k hsafe hpc hword hkw hup
  refine ⟨_, run_pressThenRelease hsafe hpc hword hkw (hup k), ?_, fun r hr => State.setReg_reg_ne _ _ hr, rfl, rfl, rfl,
    rfl, fun _ => rfl⟩
  rw [State.setReg_reg_same, key_ofNat_toNat]

end Sys2Proof.Machine
end

section
/-! SUPPORT. The family of spec/60_exceptions.md: the Load transaction, which checks the image against memory before it writes
and answers the host (O51). -/
namespace Sys2Proof.Machine

/-! ## The two answers of Load (R118, R142) -/

section
variable {s : State} {bytes : List Byte} {base : Nat}

/-- An image that fits: every byte is stored, and the host is told so. -/
theorem perform_load_of_fits (h : base + bytes.length ≤ 4096) :
    perform (.load bytes (some base)) s = .next ((s.storeBytes base bytes).answer .ok) :=
  congrArg Host.Outcome.next (if_neg h.not_gt)

/-- An image that does not fit: the host is told so, and nothing is stored. -/
theorem perform_load_of_not_fits (h : 4096 < base + bytes.length) :
    perform (.load bytes (some base)) s = .next (s.answer .loadError) :=
  congrArg Host.Outcome.next (if_pos h)

end

/-- Settles O51: a Load that fits is a run of stores and an answer; one that does not is an answer alone. -/
theorem loadCopiesTheImageOrReportsAnError : Obligations.LoadCopiesTheImageOrReportsAnError := by
  unfold Obligations.LoadCopiesTheImageOrReportsAnError
  intro s bytes base
  refine ⟨fun hfits => ⟨_, perform_load_of_fits hfits, fun k hk => ?_, ?_, ?_⟩, perform_load_of_not_fits, rfl⟩
  · rw [State.answer_readByte, s.storeBytes_readByte_add base hk]
  · exact s.storeBytes_sameBytesOutside base bytes
  · exact congrArg (State.answer · .ok) (s.storeBytes_eq base bytes)

end Sys2Proof.Machine
end

section
/-! SUPPORT. The family of spec/70_reset_and_hazards.md: the block after a Reset, whose memory lists nothing and so reads as the
font and zero elsewhere (O1), and the invariant there (O2). -/

namespace Sys2Proof.Machine

/-! ## The reset contents of memory (R136, R140) -/

/-- Row `r` of glyph `d` stands at the address R140 gives it. -/
theorem resetByte_font (c : Config) (d : Fin 16) (r : Fin 5) : resetByte c (5 * d.val + r.val) = c.font[d][r] := by
  have hfont : 5 * d.val + r.val < 80 := by omega
  have hd : (5 * d.val + r.val) / 5 = d.val := by omega
  have hr : (5 * d.val + r.val) % 5 = r.val := by omega
  simp only [resetByte, dif_pos hfont, hd, hr, Fin.getElem_fin]

/-- Above the font the reset contents are 0. -/
theorem resetByte_above_font (c : Config) {a : Nat} (ha : 0x050 ≤ a) : resetByte c a = 0 :=
  dif_neg ha.not_gt

/-- A memory that lists nothing reads as its reset contents. -/
theorem State.readByte_of_mem_nil {s : State} (hmem : s.mem = []) (a : Nat) : s.readByte a = resetByte s.cfg a := by
  simp only [State.readByte, hmem, Memory.find?, Option.getD_none]

/-! ## Every element at its reset value (R137) -/

/-- A blank display has no lit pixel. -/
theorem Grid.blank_unlit (c : Config) : ∀ row ∈ Grid.blank c, ∀ pixel ∈ row, pixel = false := by
  intro row hrow pixel hpixel
  obtain rfl : row = List.replicate c.width false := List.eq_of_mem_replicate hrow
  exact List.eq_of_mem_replicate hpixel

/-- The block made under a configuration stands at the values of R137. -/
theorem State.resetWith_atReset (c : Config) : (State.resetWith c).AtReset c where
  v x := Vector.getElem_replicate x.isLt
  i := rfl
  pc := rfl
  stack k := Vector.getElem_replicate k.isLt
  sp := rfl
  timers := ⟨rfl, rfl⟩
  display := ⟨Grid.blank_shape c, Grid.blank_unlit c⟩
  font d r := (State.readByte_of_mem_nil rfl _).trans (resetByte_font c d r)
  mem _ ha _ := (State.readByte_of_mem_nil rfl _).trans (resetByte_above_font c ha)
  keys k := ⟨Vector.getElem_replicate k.isLt, Vector.getElem_replicate k.isLt⟩
  wait := ⟨rfl, rfl⟩
  record := ⟨rfl, rfl, rfl⟩
  cfg := rfl

/-- So does the block after a Reset: what the Reset keeps (the draws, the inbox, the reply) is no element of R137. -/
theorem State.resetBlock_atReset (s : State) : s.resetBlock.AtReset s.cfg :=
  { State.resetWith_atReset s.cfg with }

/-- Settles O1: the Reset transaction answers the block after a Reset; `State.reset` is made under the defaults of R7. -/
theorem resetLeavesEveryElementAtItsResetValue : Obligations.ResetLeavesEveryElementAtItsResetValue := by
  unfold Obligations.ResetLeavesEveryElementAtItsResetValue
  exact ⟨fun s => ⟨s.resetBlock, rfl, s.resetBlock_atReset⟩, State.resetWith_atReset Config.default⟩

/-! ## The invariant at reset (R7, R136) -/

/-- Settles O2: the invariant of the reset block needs a legal configuration only. -/
theorem resetMeetsTheInvariant : Obligations.ResetMeetsTheInvariant := by
  unfold Obligations.ResetMeetsTheInvariant
  have hdefault : Config.default.Ok := by decide
  exact ⟨State.resetWith_inv hdefault, fun _ => State.resetWith_inv⟩

end Sys2Proof.Machine
end
